-- ==== Sys2Proof/Word.lean ====
section
/-! DEFINITION. The two word widths of the block: 8-bit data and 16-bit addresses (`00_scope.md` R6). -/

namespace Sys2Proof

/-- A data byte, the `u8` of `00_scope.md` R11. -/
abbrev Byte := BitVec 8

/-- A bus address, the `u16` of `00_scope.md` R11. -/
abbrev Addr := BitVec 16

/-- Characters of host text: command lines, labels, mnemonics (`48_breakpoint_engine.md` R270). -/
abbrev Text := List Char

end Sys2Proof
end

