-- ==== Sys2Proof/Machine/Bits.lean ====
section
/-! DEFINITION. Bit fields, byte order and extension: `lo`, `hi`, `word`, `zext_16`, `sext_16` of `00_scope.md`
R11 and R12. -/

namespace Sys2Proof.Machine

/-- `lo(w) = w[7:0]` (`00_scope.md` R11). -/
def lo (w : Addr) : Byte := w.setWidth 8

/-- `hi(w) = w[15:8]` (`00_scope.md` R11). -/
def hi (w : Addr) : Byte := (w >>> 8).setWidth 8

/-- `word(h, l) = 256*h + l` (`00_scope.md` R11). -/
def word (h l : Byte) : Addr := h.setWidth 16 <<< 8 ||| l.setWidth 16

/-- `zext_16(b)` (`00_scope.md` R12). -/
def zext (b : Byte) : Addr := b.setWidth 16

/-- `sext_16(b)`: the byte as a signed offset (`00_scope.md` R12). -/
def sext (b : Byte) : Addr := b.signExtend 16

/-- Bit `i` of a byte (`00_scope.md` R11). -/
def bit (b : Byte) (i : Nat) : Bool := b.getLsbD i

/-- A byte with bit `i` equal to `on` and every other bit 0: `on << i` (`00_scope.md` R11). -/
def bitAt (on : Bool) (i : Nat) : Byte := if on then 1#8 <<< i else 0#8

/-- Byte number `k` of a number whose byte 0 is the least significant. -/
def byteOf (w k : Nat) : Byte := BitVec.ofNat 8 (w / 256 ^ k)

/-- An 8-bit value as a signed number, `s8` of `42_arithmetic.md` R142. -/
def s8 (b : Byte) : Int := b.toInt

end Sys2Proof.Machine
end

