-- ==== Sys2Proof/Machine/Forms.lean ====
section
/-! DEFINITION. The vocabulary of the decoded record: the 56 mnemonics (`30_encoding.md` R98), the thirteen
addressing modes with their lengths (R83), and the operand of an instruction as the thirteen operand rules R84 to
R96 read it. -/

namespace Sys2Proof.Machine

/-- The 56 mnemonics of `30_encoding.md` R98. -/
inductive Mnemonic where
  | ADC | AND | ASL | BCC | BCS | BEQ | BIT | BMI | BNE | BPL | BRK | BVC | BVS | CLC
  | CLD | CLI | CLV | CMP | CPX | CPY | DEC | DEX | DEY | EOR | INC | INX | INY | JMP
  | JSR | LDA | LDX | LDY | LSR | NOP | ORA | PHA | PHP | PLA | PLP | ROL | ROR | RTI
  | RTS | SBC | SEC | SED | SEI | STA | STX | STY | TAX | TAY | TSX | TXA | TXS | TYA
  deriving DecidableEq, Repr

/-- The thirteen addressing modes of `30_encoding.md` R83, under their codes. -/
inductive Mode where
  | IMP | ACC | IMM | ZP | ZPX | ZPY | ABS | ABX | ABY | IND | IZX | IZY | REL
  deriving DecidableEq, Repr

/-- The byte length of an instruction by its mode (`30_encoding.md` R82, R83). -/
def Mode.length : Mode → Nat
  | .IMP | .ACC => 1
  | .IMM | .ZP | .ZPX | .ZPY | .IZX | .IZY | .REL => 2
  | .ABS | .ABX | .ABY | .IND => 3

/-- The eight operand forms that name a byte of memory (`30_encoding.md` R87 to R92, R94, R95). -/
inductive MemOperand where
  | zeroPage (zp : Byte)
  | zeroPageX (zp : Byte)
  | zeroPageY (zp : Byte)
  | absolute (addr : Addr)
  | absoluteX (addr : Addr)
  | absoluteY (addr : Addr)
  | indexedIndirect (zp : Byte)
  | indirectIndexed (zp : Byte)
  deriving DecidableEq, Repr

/-- The mode of a memory operand. -/
def MemOperand.mode : MemOperand → Mode
  | .zeroPage _ => .ZP
  | .zeroPageX _ => .ZPX
  | .zeroPageY _ => .ZPY
  | .absolute _ => .ABS
  | .absoluteX _ => .ABX
  | .absoluteY _ => .ABY
  | .indexedIndirect _ => .IZX
  | .indirectIndexed _ => .IZY

/-- The operand of an instruction in its addressing mode (`30_encoding.md` R84 to R96). The word of `JMP` and
`JSR` in mode ABS is a target and not a memory operand (R90). -/
inductive Operand where
  | implied
  | accumulator
  | immediate (v : Byte)
  | memory (m : MemOperand)
  | target (addr : Addr)
  | indirect (ptr : Addr)
  | relative (rel : Byte)
  deriving DecidableEq, Repr

/-- The mode of an operand (`30_encoding.md` R83). -/
def Operand.mode : Operand → Mode
  | .implied => .IMP
  | .accumulator => .ACC
  | .immediate _ => .IMM
  | .memory m => m.mode
  | .target _ => .ABS
  | .indirect _ => .IND
  | .relative _ => .REL

/-- What a load-class instruction takes: an immediate byte or a byte of memory (`30_encoding.md` R86, R97). -/
inductive Source where
  | immediate (v : Byte)
  | memory (m : MemOperand)
  deriving DecidableEq, Repr

/-- The operand a source is. -/
def Source.operand : Source → Operand
  | .immediate v => .immediate v
  | .memory m => .memory m

/-- What a shift or rotate works on: the accumulator or a byte of memory (`30_encoding.md` R85, R97). -/
inductive Target where
  | accumulator
  | memory (m : MemOperand)
  deriving DecidableEq, Repr

/-- The operand a target is. -/
def Target.operand : Target → Operand
  | .accumulator => .accumulator
  | .memory m => .memory m

/-- The decoded record the hook receives (`30_encoding.md` R81): opcode byte, mnemonic, mode, operand byte of a
2-byte instruction, operand word of a 3-byte instruction, length. -/
structure Instruction where
  opcode   : Byte
  mnemonic : Mnemonic
  mode     : Mode
  op8      : Byte
  op16     : Addr
  length   : Nat
  deriving DecidableEq, Repr

end Sys2Proof.Machine
end

