-- ==== Sys2Proof/Syntax.lean ====
section
/-! DEFINITION. The instructions: one constructor for each row of `opcode_table.json`, in the order of the opcode
bytes (`30_encoding.md` R98). An operand is the operand byte `Op8` or the operand word `Op16` of R81 as the
instruction carries it. -/

namespace Sys2Proof

/-- The 151 instructions of `30_encoding.md` R98, each with its operand (`30_encoding.md` R82, R83). -/
inductive Instr where
  /-- `00`: `BRK` (rule R193, mode R84). -/
  | brk
  /-- `01`: `ORA ($nn,X)` (rule R162, mode R94). -/
  | oraIzx (zp : Byte)
  /-- `05`: `ORA $nn` (rule R162, mode R87). -/
  | oraZp (zp : Byte)
  /-- `06`: `ASL $nn` (rule R165, mode R87). -/
  | aslZp (zp : Byte)
  /-- `08`: `PHP` (rule R133, mode R84). -/
  | php
  /-- `09`: `ORA #$nn` (rule R162, mode R86). -/
  | oraImm (v : Byte)
  /-- `0A`: `ASL A` (rule R165, mode R85). -/
  | aslAcc
  /-- `0D`: `ORA $nnnn` (rule R162, mode R90). -/
  | oraAbs (addr : Addr)
  /-- `0E`: `ASL $nnnn` (rule R165, mode R90). -/
  | aslAbs (addr : Addr)
  /-- `10`: `BPL $nnnn (target)` (rule R190, mode R96). -/
  | bpl (rel : Byte)
  /-- `11`: `ORA ($nn),Y` (rule R162, mode R95). -/
  | oraIzy (zp : Byte)
  /-- `15`: `ORA $nn,X` (rule R162, mode R88). -/
  | oraZpx (zp : Byte)
  /-- `16`: `ASL $nn,X` (rule R165, mode R88). -/
  | aslZpx (zp : Byte)
  /-- `18`: `CLC` (rule R200, mode R84). -/
  | clc
  /-- `19`: `ORA $nnnn,Y` (rule R162, mode R92). -/
  | oraAby (addr : Addr)
  /-- `1D`: `ORA $nnnn,X` (rule R162, mode R91). -/
  | oraAbx (addr : Addr)
  /-- `1E`: `ASL $nnnn,X` (rule R165, mode R91). -/
  | aslAbx (addr : Addr)
  /-- `20`: `JSR $nnnn` (rule R183, mode R90). -/
  | jsr (addr : Addr)
  /-- `21`: `AND ($nn,X)` (rule R161, mode R94). -/
  | andIzx (zp : Byte)
  /-- `24`: `BIT $nn` (rule R164, mode R87). -/
  | bitZp (zp : Byte)
  /-- `25`: `AND $nn` (rule R161, mode R87). -/
  | andZp (zp : Byte)
  /-- `26`: `ROL $nn` (rule R167, mode R87). -/
  | rolZp (zp : Byte)
  /-- `28`: `PLP` (rule R135, mode R84). -/
  | plp
  /-- `29`: `AND #$nn` (rule R161, mode R86). -/
  | andImm (v : Byte)
  /-- `2A`: `ROL A` (rule R167, mode R85). -/
  | rolAcc
  /-- `2C`: `BIT $nnnn` (rule R164, mode R90). -/
  | bitAbs (addr : Addr)
  /-- `2D`: `AND $nnnn` (rule R161, mode R90). -/
  | andAbs (addr : Addr)
  /-- `2E`: `ROL $nnnn` (rule R167, mode R90). -/
  | rolAbs (addr : Addr)
  /-- `30`: `BMI $nnnn (target)` (rule R189, mode R96). -/
  | bmi (rel : Byte)
  /-- `31`: `AND ($nn),Y` (rule R161, mode R95). -/
  | andIzy (zp : Byte)
  /-- `35`: `AND $nn,X` (rule R161, mode R88). -/
  | andZpx (zp : Byte)
  /-- `36`: `ROL $nn,X` (rule R167, mode R88). -/
  | rolZpx (zp : Byte)
  /-- `38`: `SEC` (rule R201, mode R84). -/
  | sec
  /-- `39`: `AND $nnnn,Y` (rule R161, mode R92). -/
  | andAby (addr : Addr)
  /-- `3D`: `AND $nnnn,X` (rule R161, mode R91). -/
  | andAbx (addr : Addr)
  /-- `3E`: `ROL $nnnn,X` (rule R167, mode R91). -/
  | rolAbx (addr : Addr)
  /-- `40`: `RTI` (rule R194, mode R84). -/
  | rti
  /-- `41`: `EOR ($nn,X)` (rule R163, mode R94). -/
  | eorIzx (zp : Byte)
  /-- `45`: `EOR $nn` (rule R163, mode R87). -/
  | eorZp (zp : Byte)
  /-- `46`: `LSR $nn` (rule R166, mode R87). -/
  | lsrZp (zp : Byte)
  /-- `48`: `PHA` (rule R132, mode R84). -/
  | pha
  /-- `49`: `EOR #$nn` (rule R163, mode R86). -/
  | eorImm (v : Byte)
  /-- `4A`: `LSR A` (rule R166, mode R85). -/
  | lsrAcc
  /-- `4C`: `JMP $nnnn` (rule R181, mode R90). -/
  | jmpAbs (addr : Addr)
  /-- `4D`: `EOR $nnnn` (rule R163, mode R90). -/
  | eorAbs (addr : Addr)
  /-- `4E`: `LSR $nnnn` (rule R166, mode R90). -/
  | lsrAbs (addr : Addr)
  /-- `50`: `BVC $nnnn (target)` (rule R191, mode R96). -/
  | bvc (rel : Byte)
  /-- `51`: `EOR ($nn),Y` (rule R163, mode R95). -/
  | eorIzy (zp : Byte)
  /-- `55`: `EOR $nn,X` (rule R163, mode R88). -/
  | eorZpx (zp : Byte)
  /-- `56`: `LSR $nn,X` (rule R166, mode R88). -/
  | lsrZpx (zp : Byte)
  /-- `58`: `CLI` (rule R202, mode R84). -/
  | cli
  /-- `59`: `EOR $nnnn,Y` (rule R163, mode R92). -/
  | eorAby (addr : Addr)
  /-- `5D`: `EOR $nnnn,X` (rule R163, mode R91). -/
  | eorAbx (addr : Addr)
  /-- `5E`: `LSR $nnnn,X` (rule R166, mode R91). -/
  | lsrAbx (addr : Addr)
  /-- `60`: `RTS` (rule R184, mode R84). -/
  | rts
  /-- `61`: `ADC ($nn,X)` (rule R141, mode R94). -/
  | adcIzx (zp : Byte)
  /-- `65`: `ADC $nn` (rule R141, mode R87). -/
  | adcZp (zp : Byte)
  /-- `66`: `ROR $nn` (rule R168, mode R87). -/
  | rorZp (zp : Byte)
  /-- `68`: `PLA` (rule R134, mode R84). -/
  | pla
  /-- `69`: `ADC #$nn` (rule R141, mode R86). -/
  | adcImm (v : Byte)
  /-- `6A`: `ROR A` (rule R168, mode R85). -/
  | rorAcc
  /-- `6C`: `JMP ($nnnn)` (rule R182, mode R93). -/
  | jmpInd (ptr : Addr)
  /-- `6D`: `ADC $nnnn` (rule R141, mode R90). -/
  | adcAbs (addr : Addr)
  /-- `6E`: `ROR $nnnn` (rule R168, mode R90). -/
  | rorAbs (addr : Addr)
  /-- `70`: `BVS $nnnn (target)` (rule R192, mode R96). -/
  | bvs (rel : Byte)
  /-- `71`: `ADC ($nn),Y` (rule R141, mode R95). -/
  | adcIzy (zp : Byte)
  /-- `75`: `ADC $nn,X` (rule R141, mode R88). -/
  | adcZpx (zp : Byte)
  /-- `76`: `ROR $nn,X` (rule R168, mode R88). -/
  | rorZpx (zp : Byte)
  /-- `78`: `SEI` (rule R203, mode R84). -/
  | sei
  /-- `79`: `ADC $nnnn,Y` (rule R141, mode R92). -/
  | adcAby (addr : Addr)
  /-- `7D`: `ADC $nnnn,X` (rule R141, mode R91). -/
  | adcAbx (addr : Addr)
  /-- `7E`: `ROR $nnnn,X` (rule R168, mode R91). -/
  | rorAbx (addr : Addr)
  /-- `81`: `STA ($nn,X)` (rule R114, mode R94). -/
  | staIzx (zp : Byte)
  /-- `84`: `STY $nn` (rule R116, mode R87). -/
  | styZp (zp : Byte)
  /-- `85`: `STA $nn` (rule R114, mode R87). -/
  | staZp (zp : Byte)
  /-- `86`: `STX $nn` (rule R115, mode R87). -/
  | stxZp (zp : Byte)
  /-- `88`: `DEY` (rule R153, mode R84). -/
  | dey
  /-- `8A`: `TXA` (rule R119, mode R84). -/
  | txa
  /-- `8C`: `STY $nnnn` (rule R116, mode R90). -/
  | styAbs (addr : Addr)
  /-- `8D`: `STA $nnnn` (rule R114, mode R90). -/
  | staAbs (addr : Addr)
  /-- `8E`: `STX $nnnn` (rule R115, mode R90). -/
  | stxAbs (addr : Addr)
  /-- `90`: `BCC $nnnn (target)` (rule R185, mode R96). -/
  | bcc (rel : Byte)
  /-- `91`: `STA ($nn),Y` (rule R114, mode R95). -/
  | staIzy (zp : Byte)
  /-- `94`: `STY $nn,X` (rule R116, mode R88). -/
  | styZpx (zp : Byte)
  /-- `95`: `STA $nn,X` (rule R114, mode R88). -/
  | staZpx (zp : Byte)
  /-- `96`: `STX $nn,Y` (rule R115, mode R89). -/
  | stxZpy (zp : Byte)
  /-- `98`: `TYA` (rule R120, mode R84). -/
  | tya
  /-- `99`: `STA $nnnn,Y` (rule R114, mode R92). -/
  | staAby (addr : Addr)
  /-- `9A`: `TXS` (rule R122, mode R84). -/
  | txs
  /-- `9D`: `STA $nnnn,X` (rule R114, mode R91). -/
  | staAbx (addr : Addr)
  /-- `A0`: `LDY #$nn` (rule R113, mode R86). -/
  | ldyImm (v : Byte)
  /-- `A1`: `LDA ($nn,X)` (rule R111, mode R94). -/
  | ldaIzx (zp : Byte)
  /-- `A2`: `LDX #$nn` (rule R112, mode R86). -/
  | ldxImm (v : Byte)
  /-- `A4`: `LDY $nn` (rule R113, mode R87). -/
  | ldyZp (zp : Byte)
  /-- `A5`: `LDA $nn` (rule R111, mode R87). -/
  | ldaZp (zp : Byte)
  /-- `A6`: `LDX $nn` (rule R112, mode R87). -/
  | ldxZp (zp : Byte)
  /-- `A8`: `TAY` (rule R118, mode R84). -/
  | tay
  /-- `A9`: `LDA #$nn` (rule R111, mode R86). -/
  | ldaImm (v : Byte)
  /-- `AA`: `TAX` (rule R117, mode R84). -/
  | tax
  /-- `AC`: `LDY $nnnn` (rule R113, mode R90). -/
  | ldyAbs (addr : Addr)
  /-- `AD`: `LDA $nnnn` (rule R111, mode R90). -/
  | ldaAbs (addr : Addr)
  /-- `AE`: `LDX $nnnn` (rule R112, mode R90). -/
  | ldxAbs (addr : Addr)
  /-- `B0`: `BCS $nnnn (target)` (rule R186, mode R96). -/
  | bcs (rel : Byte)
  /-- `B1`: `LDA ($nn),Y` (rule R111, mode R95). -/
  | ldaIzy (zp : Byte)
  /-- `B4`: `LDY $nn,X` (rule R113, mode R88). -/
  | ldyZpx (zp : Byte)
  /-- `B5`: `LDA $nn,X` (rule R111, mode R88). -/
  | ldaZpx (zp : Byte)
  /-- `B6`: `LDX $nn,Y` (rule R112, mode R89). -/
  | ldxZpy (zp : Byte)
  /-- `B8`: `CLV` (rule R206, mode R84). -/
  | clv
  /-- `B9`: `LDA $nnnn,Y` (rule R111, mode R92). -/
  | ldaAby (addr : Addr)
  /-- `BA`: `TSX` (rule R121, mode R84). -/
  | tsx
  /-- `BC`: `LDY $nnnn,X` (rule R113, mode R91). -/
  | ldyAbx (addr : Addr)
  /-- `BD`: `LDA $nnnn,X` (rule R111, mode R91). -/
  | ldaAbx (addr : Addr)
  /-- `BE`: `LDX $nnnn,Y` (rule R112, mode R92). -/
  | ldxAby (addr : Addr)
  /-- `C0`: `CPY #$nn` (rule R147, mode R86). -/
  | cpyImm (v : Byte)
  /-- `C1`: `CMP ($nn,X)` (rule R145, mode R94). -/
  | cmpIzx (zp : Byte)
  /-- `C4`: `CPY $nn` (rule R147, mode R87). -/
  | cpyZp (zp : Byte)
  /-- `C5`: `CMP $nn` (rule R145, mode R87). -/
  | cmpZp (zp : Byte)
  /-- `C6`: `DEC $nn` (rule R151, mode R87). -/
  | decZp (zp : Byte)
  /-- `C8`: `INY` (rule R150, mode R84). -/
  | iny
  /-- `C9`: `CMP #$nn` (rule R145, mode R86). -/
  | cmpImm (v : Byte)
  /-- `CA`: `DEX` (rule R152, mode R84). -/
  | dex
  /-- `CC`: `CPY $nnnn` (rule R147, mode R90). -/
  | cpyAbs (addr : Addr)
  /-- `CD`: `CMP $nnnn` (rule R145, mode R90). -/
  | cmpAbs (addr : Addr)
  /-- `CE`: `DEC $nnnn` (rule R151, mode R90). -/
  | decAbs (addr : Addr)
  /-- `D0`: `BNE $nnnn (target)` (rule R188, mode R96). -/
  | bne (rel : Byte)
  /-- `D1`: `CMP ($nn),Y` (rule R145, mode R95). -/
  | cmpIzy (zp : Byte)
  /-- `D5`: `CMP $nn,X` (rule R145, mode R88). -/
  | cmpZpx (zp : Byte)
  /-- `D6`: `DEC $nn,X` (rule R151, mode R88). -/
  | decZpx (zp : Byte)
  /-- `D8`: `CLD` (rule R204, mode R84). -/
  | cld
  /-- `D9`: `CMP $nnnn,Y` (rule R145, mode R92). -/
  | cmpAby (addr : Addr)
  /-- `DD`: `CMP $nnnn,X` (rule R145, mode R91). -/
  | cmpAbx (addr : Addr)
  /-- `DE`: `DEC $nnnn,X` (rule R151, mode R91). -/
  | decAbx (addr : Addr)
  /-- `E0`: `CPX #$nn` (rule R146, mode R86). -/
  | cpxImm (v : Byte)
  /-- `E1`: `SBC ($nn,X)` (rule R143, mode R94). -/
  | sbcIzx (zp : Byte)
  /-- `E4`: `CPX $nn` (rule R146, mode R87). -/
  | cpxZp (zp : Byte)
  /-- `E5`: `SBC $nn` (rule R143, mode R87). -/
  | sbcZp (zp : Byte)
  /-- `E6`: `INC $nn` (rule R148, mode R87). -/
  | incZp (zp : Byte)
  /-- `E8`: `INX` (rule R149, mode R84). -/
  | inx
  /-- `E9`: `SBC #$nn` (rule R143, mode R86). -/
  | sbcImm (v : Byte)
  /-- `EA`: `NOP` (rule R207, mode R84). -/
  | nop
  /-- `EC`: `CPX $nnnn` (rule R146, mode R90). -/
  | cpxAbs (addr : Addr)
  /-- `ED`: `SBC $nnnn` (rule R143, mode R90). -/
  | sbcAbs (addr : Addr)
  /-- `EE`: `INC $nnnn` (rule R148, mode R90). -/
  | incAbs (addr : Addr)
  /-- `F0`: `BEQ $nnnn (target)` (rule R187, mode R96). -/
  | beq (rel : Byte)
  /-- `F1`: `SBC ($nn),Y` (rule R143, mode R95). -/
  | sbcIzy (zp : Byte)
  /-- `F5`: `SBC $nn,X` (rule R143, mode R88). -/
  | sbcZpx (zp : Byte)
  /-- `F6`: `INC $nn,X` (rule R148, mode R88). -/
  | incZpx (zp : Byte)
  /-- `F8`: `SED` (rule R205, mode R84). -/
  | sed
  /-- `F9`: `SBC $nnnn,Y` (rule R143, mode R92). -/
  | sbcAby (addr : Addr)
  /-- `FD`: `SBC $nnnn,X` (rule R143, mode R91). -/
  | sbcAbx (addr : Addr)
  /-- `FE`: `INC $nnnn,X` (rule R148, mode R91). -/
  | incAbx (addr : Addr)
  deriving DecidableEq, Repr

end Sys2Proof
end

