-- ==== Sys2Proof/Decode.lean ====
section
/-! DEFINITION. The decoder and the encoder: the opcode map of `30_encoding.md` R98 read from byte to instruction
and written from instruction to bytes, and the decoded record of R81. -/

namespace Sys2Proof

open Sys2Proof.Machine

/-- Row `0x` of the opcode map of `30_encoding.md` R98, by the low nibble of the opcode byte. -/
def decodeRow0 (low : Nat) (b1 b2 : Byte) : Option Instr :=
  match low with
  | 0x0 => some .brk
  | 0x1 => some (.oraIzx b1)
  | 0x5 => some (.oraZp b1)
  | 0x6 => some (.aslZp b1)
  | 0x8 => some .php
  | 0x9 => some (.oraImm b1)
  | 0xA => some .aslAcc
  | 0xD => some (.oraAbs (word b2 b1))
  | 0xE => some (.aslAbs (word b2 b1))
  | _ => none

/-- Row `1x` of the opcode map of `30_encoding.md` R98, by the low nibble of the opcode byte. -/
def decodeRow1 (low : Nat) (b1 b2 : Byte) : Option Instr :=
  match low with
  | 0x0 => some (.bpl b1)
  | 0x1 => some (.oraIzy b1)
  | 0x5 => some (.oraZpx b1)
  | 0x6 => some (.aslZpx b1)
  | 0x8 => some .clc
  | 0x9 => some (.oraAby (word b2 b1))
  | 0xD => some (.oraAbx (word b2 b1))
  | 0xE => some (.aslAbx (word b2 b1))
  | _ => none

/-- Row `2x` of the opcode map of `30_encoding.md` R98, by the low nibble of the opcode byte. -/
def decodeRow2 (low : Nat) (b1 b2 : Byte) : Option Instr :=
  match low with
  | 0x0 => some (.jsr (word b2 b1))
  | 0x1 => some (.andIzx b1)
  | 0x4 => some (.bitZp b1)
  | 0x5 => some (.andZp b1)
  | 0x6 => some (.rolZp b1)
  | 0x8 => some .plp
  | 0x9 => some (.andImm b1)
  | 0xA => some .rolAcc
  | 0xC => some (.bitAbs (word b2 b1))
  | 0xD => some (.andAbs (word b2 b1))
  | 0xE => some (.rolAbs (word b2 b1))
  | _ => none

/-- Row `3x` of the opcode map of `30_encoding.md` R98, by the low nibble of the opcode byte. -/
def decodeRow3 (low : Nat) (b1 b2 : Byte) : Option Instr :=
  match low with
  | 0x0 => some (.bmi b1)
  | 0x1 => some (.andIzy b1)
  | 0x5 => some (.andZpx b1)
  | 0x6 => some (.rolZpx b1)
  | 0x8 => some .sec
  | 0x9 => some (.andAby (word b2 b1))
  | 0xD => some (.andAbx (word b2 b1))
  | 0xE => some (.rolAbx (word b2 b1))
  | _ => none

/-- Row `4x` of the opcode map of `30_encoding.md` R98, by the low nibble of the opcode byte. -/
def decodeRow4 (low : Nat) (b1 b2 : Byte) : Option Instr :=
  match low with
  | 0x0 => some .rti
  | 0x1 => some (.eorIzx b1)
  | 0x5 => some (.eorZp b1)
  | 0x6 => some (.lsrZp b1)
  | 0x8 => some .pha
  | 0x9 => some (.eorImm b1)
  | 0xA => some .lsrAcc
  | 0xC => some (.jmpAbs (word b2 b1))
  | 0xD => some (.eorAbs (word b2 b1))
  | 0xE => some (.lsrAbs (word b2 b1))
  | _ => none

/-- Row `5x` of the opcode map of `30_encoding.md` R98, by the low nibble of the opcode byte. -/
def decodeRow5 (low : Nat) (b1 b2 : Byte) : Option Instr :=
  match low with
  | 0x0 => some (.bvc b1)
  | 0x1 => some (.eorIzy b1)
  | 0x5 => some (.eorZpx b1)
  | 0x6 => some (.lsrZpx b1)
  | 0x8 => some .cli
  | 0x9 => some (.eorAby (word b2 b1))
  | 0xD => some (.eorAbx (word b2 b1))
  | 0xE => some (.lsrAbx (word b2 b1))
  | _ => none

/-- Row `6x` of the opcode map of `30_encoding.md` R98, by the low nibble of the opcode byte. -/
def decodeRow6 (low : Nat) (b1 b2 : Byte) : Option Instr :=
  match low with
  | 0x0 => some .rts
  | 0x1 => some (.adcIzx b1)
  | 0x5 => some (.adcZp b1)
  | 0x6 => some (.rorZp b1)
  | 0x8 => some .pla
  | 0x9 => some (.adcImm b1)
  | 0xA => some .rorAcc
  | 0xC => some (.jmpInd (word b2 b1))
  | 0xD => some (.adcAbs (word b2 b1))
  | 0xE => some (.rorAbs (word b2 b1))
  | _ => none

/-- Row `7x` of the opcode map of `30_encoding.md` R98, by the low nibble of the opcode byte. -/
def decodeRow7 (low : Nat) (b1 b2 : Byte) : Option Instr :=
  match low with
  | 0x0 => some (.bvs b1)
  | 0x1 => some (.adcIzy b1)
  | 0x5 => some (.adcZpx b1)
  | 0x6 => some (.rorZpx b1)
  | 0x8 => some .sei
  | 0x9 => some (.adcAby (word b2 b1))
  | 0xD => some (.adcAbx (word b2 b1))
  | 0xE => some (.rorAbx (word b2 b1))
  | _ => none

/-- Row `8x` of the opcode map of `30_encoding.md` R98, by the low nibble of the opcode byte. -/
def decodeRow8 (low : Nat) (b1 b2 : Byte) : Option Instr :=
  match low with
  | 0x1 => some (.staIzx b1)
  | 0x4 => some (.styZp b1)
  | 0x5 => some (.staZp b1)
  | 0x6 => some (.stxZp b1)
  | 0x8 => some .dey
  | 0xA => some .txa
  | 0xC => some (.styAbs (word b2 b1))
  | 0xD => some (.staAbs (word b2 b1))
  | 0xE => some (.stxAbs (word b2 b1))
  | _ => none

/-- Row `9x` of the opcode map of `30_encoding.md` R98, by the low nibble of the opcode byte. -/
def decodeRow9 (low : Nat) (b1 b2 : Byte) : Option Instr :=
  match low with
  | 0x0 => some (.bcc b1)
  | 0x1 => some (.staIzy b1)
  | 0x4 => some (.styZpx b1)
  | 0x5 => some (.staZpx b1)
  | 0x6 => some (.stxZpy b1)
  | 0x8 => some .tya
  | 0x9 => some (.staAby (word b2 b1))
  | 0xA => some .txs
  | 0xD => some (.staAbx (word b2 b1))
  | _ => none

/-- Row `Ax` of the opcode map of `30_encoding.md` R98, by the low nibble of the opcode byte. -/
def decodeRowA (low : Nat) (b1 b2 : Byte) : Option Instr :=
  match low with
  | 0x0 => some (.ldyImm b1)
  | 0x1 => some (.ldaIzx b1)
  | 0x2 => some (.ldxImm b1)
  | 0x4 => some (.ldyZp b1)
  | 0x5 => some (.ldaZp b1)
  | 0x6 => some (.ldxZp b1)
  | 0x8 => some .tay
  | 0x9 => some (.ldaImm b1)
  | 0xA => some .tax
  | 0xC => some (.ldyAbs (word b2 b1))
  | 0xD => some (.ldaAbs (word b2 b1))
  | 0xE => some (.ldxAbs (word b2 b1))
  | _ => none

/-- Row `Bx` of the opcode map of `30_encoding.md` R98, by the low nibble of the opcode byte. -/
def decodeRowB (low : Nat) (b1 b2 : Byte) : Option Instr :=
  match low with
  | 0x0 => some (.bcs b1)
  | 0x1 => some (.ldaIzy b1)
  | 0x4 => some (.ldyZpx b1)
  | 0x5 => some (.ldaZpx b1)
  | 0x6 => some (.ldxZpy b1)
  | 0x8 => some .clv
  | 0x9 => some (.ldaAby (word b2 b1))
  | 0xA => some .tsx
  | 0xC => some (.ldyAbx (word b2 b1))
  | 0xD => some (.ldaAbx (word b2 b1))
  | 0xE => some (.ldxAby (word b2 b1))
  | _ => none

/-- Row `Cx` of the opcode map of `30_encoding.md` R98, by the low nibble of the opcode byte. -/
def decodeRowC (low : Nat) (b1 b2 : Byte) : Option Instr :=
  match low with
  | 0x0 => some (.cpyImm b1)
  | 0x1 => some (.cmpIzx b1)
  | 0x4 => some (.cpyZp b1)
  | 0x5 => some (.cmpZp b1)
  | 0x6 => some (.decZp b1)
  | 0x8 => some .iny
  | 0x9 => some (.cmpImm b1)
  | 0xA => some .dex
  | 0xC => some (.cpyAbs (word b2 b1))
  | 0xD => some (.cmpAbs (word b2 b1))
  | 0xE => some (.decAbs (word b2 b1))
  | _ => none

/-- Row `Dx` of the opcode map of `30_encoding.md` R98, by the low nibble of the opcode byte. -/
def decodeRowD (low : Nat) (b1 b2 : Byte) : Option Instr :=
  match low with
  | 0x0 => some (.bne b1)
  | 0x1 => some (.cmpIzy b1)
  | 0x5 => some (.cmpZpx b1)
  | 0x6 => some (.decZpx b1)
  | 0x8 => some .cld
  | 0x9 => some (.cmpAby (word b2 b1))
  | 0xD => some (.cmpAbx (word b2 b1))
  | 0xE => some (.decAbx (word b2 b1))
  | _ => none

/-- Row `Ex` of the opcode map of `30_encoding.md` R98, by the low nibble of the opcode byte. -/
def decodeRowE (low : Nat) (b1 b2 : Byte) : Option Instr :=
  match low with
  | 0x0 => some (.cpxImm b1)
  | 0x1 => some (.sbcIzx b1)
  | 0x4 => some (.cpxZp b1)
  | 0x5 => some (.sbcZp b1)
  | 0x6 => some (.incZp b1)
  | 0x8 => some .inx
  | 0x9 => some (.sbcImm b1)
  | 0xA => some .nop
  | 0xC => some (.cpxAbs (word b2 b1))
  | 0xD => some (.sbcAbs (word b2 b1))
  | 0xE => some (.incAbs (word b2 b1))
  | _ => none

/-- Row `Fx` of the opcode map of `30_encoding.md` R98, by the low nibble of the opcode byte. -/
def decodeRowF (low : Nat) (b1 b2 : Byte) : Option Instr :=
  match low with
  | 0x0 => some (.beq b1)
  | 0x1 => some (.sbcIzy b1)
  | 0x5 => some (.sbcZpx b1)
  | 0x6 => some (.incZpx b1)
  | 0x8 => some .sed
  | 0x9 => some (.sbcAby (word b2 b1))
  | 0xD => some (.sbcAbx (word b2 b1))
  | 0xE => some (.incAbx (word b2 b1))
  | _ => none

/-- The opcode map of `30_encoding.md` R98: what the opcode byte `op` followed by the bytes `b1`, `b2` decodes to.
A form of 1 or 2 bytes leaves the later ones unread. The 105 bytes of R99 decode to nothing. -/
def decodeWith (op b1 b2 : Byte) : Option Instr :=
  match op.toNat / 16 with
  | 0x0 => decodeRow0 (op.toNat % 16) b1 b2
  | 0x1 => decodeRow1 (op.toNat % 16) b1 b2
  | 0x2 => decodeRow2 (op.toNat % 16) b1 b2
  | 0x3 => decodeRow3 (op.toNat % 16) b1 b2
  | 0x4 => decodeRow4 (op.toNat % 16) b1 b2
  | 0x5 => decodeRow5 (op.toNat % 16) b1 b2
  | 0x6 => decodeRow6 (op.toNat % 16) b1 b2
  | 0x7 => decodeRow7 (op.toNat % 16) b1 b2
  | 0x8 => decodeRow8 (op.toNat % 16) b1 b2
  | 0x9 => decodeRow9 (op.toNat % 16) b1 b2
  | 0xA => decodeRowA (op.toNat % 16) b1 b2
  | 0xB => decodeRowB (op.toNat % 16) b1 b2
  | 0xC => decodeRowC (op.toNat % 16) b1 b2
  | 0xD => decodeRowD (op.toNat % 16) b1 b2
  | 0xE => decodeRowE (op.toNat % 16) b1 b2
  | _ => decodeRowF (op.toNat % 16) b1 b2

/-- The mnemonic of an instruction (`30_encoding.md` R81, R98). -/
def Instr.mnemonic : Instr → Mnemonic
  | .brk => .BRK
  | .oraIzx _ => .ORA
  | .oraZp _ => .ORA
  | .aslZp _ => .ASL
  | .php => .PHP
  | .oraImm _ => .ORA
  | .aslAcc => .ASL
  | .oraAbs _ => .ORA
  | .aslAbs _ => .ASL
  | .bpl _ => .BPL
  | .oraIzy _ => .ORA
  | .oraZpx _ => .ORA
  | .aslZpx _ => .ASL
  | .clc => .CLC
  | .oraAby _ => .ORA
  | .oraAbx _ => .ORA
  | .aslAbx _ => .ASL
  | .jsr _ => .JSR
  | .andIzx _ => .AND
  | .bitZp _ => .BIT
  | .andZp _ => .AND
  | .rolZp _ => .ROL
  | .plp => .PLP
  | .andImm _ => .AND
  | .rolAcc => .ROL
  | .bitAbs _ => .BIT
  | .andAbs _ => .AND
  | .rolAbs _ => .ROL
  | .bmi _ => .BMI
  | .andIzy _ => .AND
  | .andZpx _ => .AND
  | .rolZpx _ => .ROL
  | .sec => .SEC
  | .andAby _ => .AND
  | .andAbx _ => .AND
  | .rolAbx _ => .ROL
  | .rti => .RTI
  | .eorIzx _ => .EOR
  | .eorZp _ => .EOR
  | .lsrZp _ => .LSR
  | .pha => .PHA
  | .eorImm _ => .EOR
  | .lsrAcc => .LSR
  | .jmpAbs _ => .JMP
  | .eorAbs _ => .EOR
  | .lsrAbs _ => .LSR
  | .bvc _ => .BVC
  | .eorIzy _ => .EOR
  | .eorZpx _ => .EOR
  | .lsrZpx _ => .LSR
  | .cli => .CLI
  | .eorAby _ => .EOR
  | .eorAbx _ => .EOR
  | .lsrAbx _ => .LSR
  | .rts => .RTS
  | .adcIzx _ => .ADC
  | .adcZp _ => .ADC
  | .rorZp _ => .ROR
  | .pla => .PLA
  | .adcImm _ => .ADC
  | .rorAcc => .ROR
  | .jmpInd _ => .JMP
  | .adcAbs _ => .ADC
  | .rorAbs _ => .ROR
  | .bvs _ => .BVS
  | .adcIzy _ => .ADC
  | .adcZpx _ => .ADC
  | .rorZpx _ => .ROR
  | .sei => .SEI
  | .adcAby _ => .ADC
  | .adcAbx _ => .ADC
  | .rorAbx _ => .ROR
  | .staIzx _ => .STA
  | .styZp _ => .STY
  | .staZp _ => .STA
  | .stxZp _ => .STX
  | .dey => .DEY
  | .txa => .TXA
  | .styAbs _ => .STY
  | .staAbs _ => .STA
  | .stxAbs _ => .STX
  | .bcc _ => .BCC
  | .staIzy _ => .STA
  | .styZpx _ => .STY
  | .staZpx _ => .STA
  | .stxZpy _ => .STX
  | .tya => .TYA
  | .staAby _ => .STA
  | .txs => .TXS
  | .staAbx _ => .STA
  | .ldyImm _ => .LDY
  | .ldaIzx _ => .LDA
  | .ldxImm _ => .LDX
  | .ldyZp _ => .LDY
  | .ldaZp _ => .LDA
  | .ldxZp _ => .LDX
  | .tay => .TAY
  | .ldaImm _ => .LDA
  | .tax => .TAX
  | .ldyAbs _ => .LDY
  | .ldaAbs _ => .LDA
  | .ldxAbs _ => .LDX
  | .bcs _ => .BCS
  | .ldaIzy _ => .LDA
  | .ldyZpx _ => .LDY
  | .ldaZpx _ => .LDA
  | .ldxZpy _ => .LDX
  | .clv => .CLV
  | .ldaAby _ => .LDA
  | .tsx => .TSX
  | .ldyAbx _ => .LDY
  | .ldaAbx _ => .LDA
  | .ldxAby _ => .LDX
  | .cpyImm _ => .CPY
  | .cmpIzx _ => .CMP
  | .cpyZp _ => .CPY
  | .cmpZp _ => .CMP
  | .decZp _ => .DEC
  | .iny => .INY
  | .cmpImm _ => .CMP
  | .dex => .DEX
  | .cpyAbs _ => .CPY
  | .cmpAbs _ => .CMP
  | .decAbs _ => .DEC
  | .bne _ => .BNE
  | .cmpIzy _ => .CMP
  | .cmpZpx _ => .CMP
  | .decZpx _ => .DEC
  | .cld => .CLD
  | .cmpAby _ => .CMP
  | .cmpAbx _ => .CMP
  | .decAbx _ => .DEC
  | .cpxImm _ => .CPX
  | .sbcIzx _ => .SBC
  | .cpxZp _ => .CPX
  | .sbcZp _ => .SBC
  | .incZp _ => .INC
  | .inx => .INX
  | .sbcImm _ => .SBC
  | .nop => .NOP
  | .cpxAbs _ => .CPX
  | .sbcAbs _ => .SBC
  | .incAbs _ => .INC
  | .beq _ => .BEQ
  | .sbcIzy _ => .SBC
  | .sbcZpx _ => .SBC
  | .incZpx _ => .INC
  | .sed => .SED
  | .sbcAby _ => .SBC
  | .sbcAbx _ => .SBC
  | .incAbx _ => .INC

/-- The operand of an instruction in its mode (`30_encoding.md` R83, R98). -/
def Instr.operand : Instr → Operand
  | .brk => .implied
  | .oraIzx zp => .memory (.indexedIndirect zp)
  | .oraZp zp => .memory (.zeroPage zp)
  | .aslZp zp => .memory (.zeroPage zp)
  | .php => .implied
  | .oraImm v => .immediate v
  | .aslAcc => .accumulator
  | .oraAbs addr => .memory (.absolute addr)
  | .aslAbs addr => .memory (.absolute addr)
  | .bpl rel => .relative rel
  | .oraIzy zp => .memory (.indirectIndexed zp)
  | .oraZpx zp => .memory (.zeroPageX zp)
  | .aslZpx zp => .memory (.zeroPageX zp)
  | .clc => .implied
  | .oraAby addr => .memory (.absoluteY addr)
  | .oraAbx addr => .memory (.absoluteX addr)
  | .aslAbx addr => .memory (.absoluteX addr)
  | .jsr addr => .target addr
  | .andIzx zp => .memory (.indexedIndirect zp)
  | .bitZp zp => .memory (.zeroPage zp)
  | .andZp zp => .memory (.zeroPage zp)
  | .rolZp zp => .memory (.zeroPage zp)
  | .plp => .implied
  | .andImm v => .immediate v
  | .rolAcc => .accumulator
  | .bitAbs addr => .memory (.absolute addr)
  | .andAbs addr => .memory (.absolute addr)
  | .rolAbs addr => .memory (.absolute addr)
  | .bmi rel => .relative rel
  | .andIzy zp => .memory (.indirectIndexed zp)
  | .andZpx zp => .memory (.zeroPageX zp)
  | .rolZpx zp => .memory (.zeroPageX zp)
  | .sec => .implied
  | .andAby addr => .memory (.absoluteY addr)
  | .andAbx addr => .memory (.absoluteX addr)
  | .rolAbx addr => .memory (.absoluteX addr)
  | .rti => .implied
  | .eorIzx zp => .memory (.indexedIndirect zp)
  | .eorZp zp => .memory (.zeroPage zp)
  | .lsrZp zp => .memory (.zeroPage zp)
  | .pha => .implied
  | .eorImm v => .immediate v
  | .lsrAcc => .accumulator
  | .jmpAbs addr => .target addr
  | .eorAbs addr => .memory (.absolute addr)
  | .lsrAbs addr => .memory (.absolute addr)
  | .bvc rel => .relative rel
  | .eorIzy zp => .memory (.indirectIndexed zp)
  | .eorZpx zp => .memory (.zeroPageX zp)
  | .lsrZpx zp => .memory (.zeroPageX zp)
  | .cli => .implied
  | .eorAby addr => .memory (.absoluteY addr)
  | .eorAbx addr => .memory (.absoluteX addr)
  | .lsrAbx addr => .memory (.absoluteX addr)
  | .rts => .implied
  | .adcIzx zp => .memory (.indexedIndirect zp)
  | .adcZp zp => .memory (.zeroPage zp)
  | .rorZp zp => .memory (.zeroPage zp)
  | .pla => .implied
  | .adcImm v => .immediate v
  | .rorAcc => .accumulator
  | .jmpInd ptr => .indirect ptr
  | .adcAbs addr => .memory (.absolute addr)
  | .rorAbs addr => .memory (.absolute addr)
  | .bvs rel => .relative rel
  | .adcIzy zp => .memory (.indirectIndexed zp)
  | .adcZpx zp => .memory (.zeroPageX zp)
  | .rorZpx zp => .memory (.zeroPageX zp)
  | .sei => .implied
  | .adcAby addr => .memory (.absoluteY addr)
  | .adcAbx addr => .memory (.absoluteX addr)
  | .rorAbx addr => .memory (.absoluteX addr)
  | .staIzx zp => .memory (.indexedIndirect zp)
  | .styZp zp => .memory (.zeroPage zp)
  | .staZp zp => .memory (.zeroPage zp)
  | .stxZp zp => .memory (.zeroPage zp)
  | .dey => .implied
  | .txa => .implied
  | .styAbs addr => .memory (.absolute addr)
  | .staAbs addr => .memory (.absolute addr)
  | .stxAbs addr => .memory (.absolute addr)
  | .bcc rel => .relative rel
  | .staIzy zp => .memory (.indirectIndexed zp)
  | .styZpx zp => .memory (.zeroPageX zp)
  | .staZpx zp => .memory (.zeroPageX zp)
  | .stxZpy zp => .memory (.zeroPageY zp)
  | .tya => .implied
  | .staAby addr => .memory (.absoluteY addr)
  | .txs => .implied
  | .staAbx addr => .memory (.absoluteX addr)
  | .ldyImm v => .immediate v
  | .ldaIzx zp => .memory (.indexedIndirect zp)
  | .ldxImm v => .immediate v
  | .ldyZp zp => .memory (.zeroPage zp)
  | .ldaZp zp => .memory (.zeroPage zp)
  | .ldxZp zp => .memory (.zeroPage zp)
  | .tay => .implied
  | .ldaImm v => .immediate v
  | .tax => .implied
  | .ldyAbs addr => .memory (.absolute addr)
  | .ldaAbs addr => .memory (.absolute addr)
  | .ldxAbs addr => .memory (.absolute addr)
  | .bcs rel => .relative rel
  | .ldaIzy zp => .memory (.indirectIndexed zp)
  | .ldyZpx zp => .memory (.zeroPageX zp)
  | .ldaZpx zp => .memory (.zeroPageX zp)
  | .ldxZpy zp => .memory (.zeroPageY zp)
  | .clv => .implied
  | .ldaAby addr => .memory (.absoluteY addr)
  | .tsx => .implied
  | .ldyAbx addr => .memory (.absoluteX addr)
  | .ldaAbx addr => .memory (.absoluteX addr)
  | .ldxAby addr => .memory (.absoluteY addr)
  | .cpyImm v => .immediate v
  | .cmpIzx zp => .memory (.indexedIndirect zp)
  | .cpyZp zp => .memory (.zeroPage zp)
  | .cmpZp zp => .memory (.zeroPage zp)
  | .decZp zp => .memory (.zeroPage zp)
  | .iny => .implied
  | .cmpImm v => .immediate v
  | .dex => .implied
  | .cpyAbs addr => .memory (.absolute addr)
  | .cmpAbs addr => .memory (.absolute addr)
  | .decAbs addr => .memory (.absolute addr)
  | .bne rel => .relative rel
  | .cmpIzy zp => .memory (.indirectIndexed zp)
  | .cmpZpx zp => .memory (.zeroPageX zp)
  | .decZpx zp => .memory (.zeroPageX zp)
  | .cld => .implied
  | .cmpAby addr => .memory (.absoluteY addr)
  | .cmpAbx addr => .memory (.absoluteX addr)
  | .decAbx addr => .memory (.absoluteX addr)
  | .cpxImm v => .immediate v
  | .sbcIzx zp => .memory (.indexedIndirect zp)
  | .cpxZp zp => .memory (.zeroPage zp)
  | .sbcZp zp => .memory (.zeroPage zp)
  | .incZp zp => .memory (.zeroPage zp)
  | .inx => .implied
  | .sbcImm v => .immediate v
  | .nop => .implied
  | .cpxAbs addr => .memory (.absolute addr)
  | .sbcAbs addr => .memory (.absolute addr)
  | .incAbs addr => .memory (.absolute addr)
  | .beq rel => .relative rel
  | .sbcIzy zp => .memory (.indirectIndexed zp)
  | .sbcZpx zp => .memory (.zeroPageX zp)
  | .incZpx zp => .memory (.zeroPageX zp)
  | .sed => .implied
  | .sbcAby addr => .memory (.absoluteY addr)
  | .sbcAbx addr => .memory (.absoluteX addr)
  | .incAbx addr => .memory (.absoluteX addr)

/-- The opcode byte of an instruction (`30_encoding.md` R98). -/
def Instr.opcode : Instr → Byte
  | .brk => 0x00#8
  | .oraIzx _ => 0x01#8
  | .oraZp _ => 0x05#8
  | .aslZp _ => 0x06#8
  | .php => 0x08#8
  | .oraImm _ => 0x09#8
  | .aslAcc => 0x0A#8
  | .oraAbs _ => 0x0D#8
  | .aslAbs _ => 0x0E#8
  | .bpl _ => 0x10#8
  | .oraIzy _ => 0x11#8
  | .oraZpx _ => 0x15#8
  | .aslZpx _ => 0x16#8
  | .clc => 0x18#8
  | .oraAby _ => 0x19#8
  | .oraAbx _ => 0x1D#8
  | .aslAbx _ => 0x1E#8
  | .jsr _ => 0x20#8
  | .andIzx _ => 0x21#8
  | .bitZp _ => 0x24#8
  | .andZp _ => 0x25#8
  | .rolZp _ => 0x26#8
  | .plp => 0x28#8
  | .andImm _ => 0x29#8
  | .rolAcc => 0x2A#8
  | .bitAbs _ => 0x2C#8
  | .andAbs _ => 0x2D#8
  | .rolAbs _ => 0x2E#8
  | .bmi _ => 0x30#8
  | .andIzy _ => 0x31#8
  | .andZpx _ => 0x35#8
  | .rolZpx _ => 0x36#8
  | .sec => 0x38#8
  | .andAby _ => 0x39#8
  | .andAbx _ => 0x3D#8
  | .rolAbx _ => 0x3E#8
  | .rti => 0x40#8
  | .eorIzx _ => 0x41#8
  | .eorZp _ => 0x45#8
  | .lsrZp _ => 0x46#8
  | .pha => 0x48#8
  | .eorImm _ => 0x49#8
  | .lsrAcc => 0x4A#8
  | .jmpAbs _ => 0x4C#8
  | .eorAbs _ => 0x4D#8
  | .lsrAbs _ => 0x4E#8
  | .bvc _ => 0x50#8
  | .eorIzy _ => 0x51#8
  | .eorZpx _ => 0x55#8
  | .lsrZpx _ => 0x56#8
  | .cli => 0x58#8
  | .eorAby _ => 0x59#8
  | .eorAbx _ => 0x5D#8
  | .lsrAbx _ => 0x5E#8
  | .rts => 0x60#8
  | .adcIzx _ => 0x61#8
  | .adcZp _ => 0x65#8
  | .rorZp _ => 0x66#8
  | .pla => 0x68#8
  | .adcImm _ => 0x69#8
  | .rorAcc => 0x6A#8
  | .jmpInd _ => 0x6C#8
  | .adcAbs _ => 0x6D#8
  | .rorAbs _ => 0x6E#8
  | .bvs _ => 0x70#8
  | .adcIzy _ => 0x71#8
  | .adcZpx _ => 0x75#8
  | .rorZpx _ => 0x76#8
  | .sei => 0x78#8
  | .adcAby _ => 0x79#8
  | .adcAbx _ => 0x7D#8
  | .rorAbx _ => 0x7E#8
  | .staIzx _ => 0x81#8
  | .styZp _ => 0x84#8
  | .staZp _ => 0x85#8
  | .stxZp _ => 0x86#8
  | .dey => 0x88#8
  | .txa => 0x8A#8
  | .styAbs _ => 0x8C#8
  | .staAbs _ => 0x8D#8
  | .stxAbs _ => 0x8E#8
  | .bcc _ => 0x90#8
  | .staIzy _ => 0x91#8
  | .styZpx _ => 0x94#8
  | .staZpx _ => 0x95#8
  | .stxZpy _ => 0x96#8
  | .tya => 0x98#8
  | .staAby _ => 0x99#8
  | .txs => 0x9A#8
  | .staAbx _ => 0x9D#8
  | .ldyImm _ => 0xA0#8
  | .ldaIzx _ => 0xA1#8
  | .ldxImm _ => 0xA2#8
  | .ldyZp _ => 0xA4#8
  | .ldaZp _ => 0xA5#8
  | .ldxZp _ => 0xA6#8
  | .tay => 0xA8#8
  | .ldaImm _ => 0xA9#8
  | .tax => 0xAA#8
  | .ldyAbs _ => 0xAC#8
  | .ldaAbs _ => 0xAD#8
  | .ldxAbs _ => 0xAE#8
  | .bcs _ => 0xB0#8
  | .ldaIzy _ => 0xB1#8
  | .ldyZpx _ => 0xB4#8
  | .ldaZpx _ => 0xB5#8
  | .ldxZpy _ => 0xB6#8
  | .clv => 0xB8#8
  | .ldaAby _ => 0xB9#8
  | .tsx => 0xBA#8
  | .ldyAbx _ => 0xBC#8
  | .ldaAbx _ => 0xBD#8
  | .ldxAby _ => 0xBE#8
  | .cpyImm _ => 0xC0#8
  | .cmpIzx _ => 0xC1#8
  | .cpyZp _ => 0xC4#8
  | .cmpZp _ => 0xC5#8
  | .decZp _ => 0xC6#8
  | .iny => 0xC8#8
  | .cmpImm _ => 0xC9#8
  | .dex => 0xCA#8
  | .cpyAbs _ => 0xCC#8
  | .cmpAbs _ => 0xCD#8
  | .decAbs _ => 0xCE#8
  | .bne _ => 0xD0#8
  | .cmpIzy _ => 0xD1#8
  | .cmpZpx _ => 0xD5#8
  | .decZpx _ => 0xD6#8
  | .cld => 0xD8#8
  | .cmpAby _ => 0xD9#8
  | .cmpAbx _ => 0xDD#8
  | .decAbx _ => 0xDE#8
  | .cpxImm _ => 0xE0#8
  | .sbcIzx _ => 0xE1#8
  | .cpxZp _ => 0xE4#8
  | .sbcZp _ => 0xE5#8
  | .incZp _ => 0xE6#8
  | .inx => 0xE8#8
  | .sbcImm _ => 0xE9#8
  | .nop => 0xEA#8
  | .cpxAbs _ => 0xEC#8
  | .sbcAbs _ => 0xED#8
  | .incAbs _ => 0xEE#8
  | .beq _ => 0xF0#8
  | .sbcIzy _ => 0xF1#8
  | .sbcZpx _ => 0xF5#8
  | .incZpx _ => 0xF6#8
  | .sed => 0xF8#8
  | .sbcAby _ => 0xF9#8
  | .sbcAbx _ => 0xFD#8
  | .incAbx _ => 0xFE#8

/-- The addressing mode of an instruction. -/
def Instr.mode (i : Instr) : Mode := i.operand.mode

/-- The byte length of an instruction (`30_encoding.md` R82, R83). -/
def Instr.length (i : Instr) : Nat := i.mode.length

/-- The operand byte `Op8` of a 2-byte instruction (`30_encoding.md` R81). R81 gives no value for the other lengths: 0 there
is a DESIGN CHOICE (log entry 28, unsafe). -/
def Machine.Operand.op8 : Operand → Byte
  | .immediate v | .relative v => v
  | .memory (.zeroPage v) | .memory (.zeroPageX v) | .memory (.zeroPageY v) => v
  | .memory (.indexedIndirect v) | .memory (.indirectIndexed v) => v
  | _ => 0#8

/-- The operand word `Op16` of a 3-byte instruction (`30_encoding.md` R81). R81 gives no value for the other lengths: 0
there is a DESIGN CHOICE (log entry 28, unsafe). -/
def Machine.Operand.op16 : Operand → Addr
  | .target w | .indirect w => w
  | .memory (.absolute w) | .memory (.absoluteX w) | .memory (.absoluteY w) => w
  | _ => 0#16

/-- The decoded record that every monitor receives (`30_encoding.md` R81). -/
def Instr.record (i : Instr) : Instruction where
  opcode   := i.opcode
  mnemonic := i.mnemonic
  mode     := i.mode
  op8      := i.operand.op8
  op16     := i.operand.op16
  length   := i.length

/-- The byte length an opcode byte announces, if it is one of the 151 (`30_encoding.md` R82). -/
def opcodeLength (op : Byte) : Option Nat := (decodeWith op 0#8 0#8).map Instr.length

/-- Decode the instruction at the head of a list of bytes, with the bytes after it; nothing for one of the 105
undefined opcodes or where an operand byte is missing (`30_encoding.md` R82, R98, R99). -/
def decode : List Byte → Option (Instr × List Byte)
  | [] => none
  | op :: rest =>
    match opcodeLength op, rest with
    | some 1, _ => (decodeWith op 0#8 0#8).map fun i => (i, rest)
    | some 2, b1 :: rest => (decodeWith op b1 0#8).map fun i => (i, rest)
    | some 3, b1 :: b2 :: rest => (decodeWith op b1 b2).map fun i => (i, rest)
    | _, _ => none

/-- The bytes of an instruction in ascending address order, opcode first, an operand word low byte first
(`30_encoding.md` R82, `20_memory.md` R58). -/
def encode (i : Instr) : List Byte :=
  match i.length with
  | 1 => [i.opcode]
  | 2 => [i.opcode, i.operand.op8]
  | _ => [i.opcode, lo (i.operand.op16), hi (i.operand.op16)]

/-- The first three bytes of an instruction whose bits are `w` in the numbering of `opcode_table.json` (byte 0 is
the opcode, byte `k` the bits from `8*k` up), every bit from `nbits` up being 0. -/
def tableBytes (nbits w : Nat) : List Byte :=
  [byteOf (w % 2 ^ nbits) 0, byteOf (w % 2 ^ nbits) 1, byteOf (w % 2 ^ nbits) 2]

/-- What the decoder reads from an instruction whose bits are `w` in the numbering of `opcode_table.json`. -/
def decodeTableWord (nbits w : Nat) : Option Instr := (decode (tableBytes nbits w)).map Prod.fst

end Sys2Proof
end

