-- ==== Sys2Proof/Config.lean ====
section
/-! DEFINITION. What a platform fixes: the parameters of `00_scope.md` R7 as plain data, and the free values of
the external oracles as constants without a body. -/

namespace Sys2Proof

/-- `DECIMAL_ARITH` (`92_eei_decisions.md` D7, OPEN): what `ADC` and `SBC` do when `D = 1`. -/
inductive DecimalArith where
  | bcdNmos
  | binary
  | refuse
  deriving DecidableEq, Repr, Inhabited

/-- `ROM_WRITE` (`92_eei_decisions.md` D11): what a write to a ROM device does. -/
inductive RomWrite where
  | fault
  | ignore
  deriving DecidableEq, Repr, Inhabited

/-- One entry of DBG's symbol table, a label and one of its addresses (`48_breakpoint_engine.md` R260). -/
structure Symbol where
  label   : Text
  address : Addr
  deriving DecidableEq, Repr, Inhabited

/-- The parameters of `00_scope.md` R7 that the running machine uses, and the symbol table of
`48_breakpoint_engine.md` R260. The machine's state carries this record and no step changes it, so a statement
about every state is a statement about every setting (log entry 1). The power-on parameters (`BUS_MAP`,
`RESET_A` and so on) are arguments of the model's power-on. -/
structure Params where
  resetVector        : Addr
  brkVector          : Addr
  stackPage          : Addr
  decimalArith       : DecimalArith
  jmpIndPageWrap     : Bool
  romWrite           : RomWrite
  aciaOverrunBit     : Fin 8
  aciaRxFullBit      : Fin 8
  aciaTxEmptyBit     : Fin 8
  aciaCmdRxIrqMask   : Byte
  aciaCmdTxIrqMask   : Byte
  aciaRxPush         : Bool
  spiSclkBit         : Fin 8
  spiMosiBit         : Fin 8
  spiMisoBit         : Fin 8
  symbols            : List Symbol
  deriving DecidableEq, Repr

/-- The defaults of `00_scope.md` R7. R7 leaves `decimalArith`, `aciaRxPush` and the three SPI bits OPEN; the
values here are a DESIGN CHOICE (log entry 2, unsafe for a claim that rests on them; no obligation does). -/
def Params.default : Params where
  resetVector      := 0xFFFC#16
  brkVector        := 0xFFFE#16
  stackPage        := 0x0100#16
  decimalArith     := .bcdNmos
  jmpIndPageWrap   := false
  romWrite         := .fault
  aciaOverrunBit   := 2
  aciaRxFullBit    := 3
  aciaTxEmptyBit   := 4
  aciaCmdRxIrqMask := 0x02#8
  aciaCmdTxIrqMask := 0x04#8
  aciaRxPush       := true
  spiSclkBit       := 0
  spiMosiBit       := 1
  spiMisoBit       := 7
  symbols          := []

/-- The limits `00_scope.md` R7 sets on the parameters: the interrupt masks are not zero and the three SPI bits
are pairwise distinct. -/
def Params.wf (p : Params) : Bool :=
  p.aciaCmdRxIrqMask != 0#8 && p.aciaCmdTxIrqMask != 0#8 &&
  p.spiSclkBit != p.spiMosiBit && p.spiSclkBit != p.spiMisoBit && p.spiMosiBit != p.spiMisoBit

/-- What `capabilities()` of a peripheral returns (`46_acia.md` R212). -/
inductive Capability where
  | none
  | read
  | write
  | bidirectional
  deriving DecidableEq, Repr, Inhabited

/-- What a peripheral's `read()` returns (`46_acia.md` R212). -/
inductive PeripheralRead where
  | got (v : Byte)
  | nothing
  | error
  deriving DecidableEq, Repr, Inhabited

/-- What a peripheral's `write(byte)` returns (`46_acia.md` R212). -/
inductive PeripheralWrite where
  | accepted
  | rejected
  | error
  deriving DecidableEq, Repr, Inhabited

/-- The free answer of peripheral `id` to its `read()` when it is the peripheral's call number `call` and no
scripted answer is left (`46_acia.md` R212: the peripheral is an oracle; log entry 12, safe). -/
opaque Config.peripheralRead (id call : Nat) : PeripheralRead

/-- The free answer of peripheral `id` to `write(v)` at its call number `call` when no scripted answer is left
(`46_acia.md` R212; log entry 12, safe). -/
opaque Config.peripheralWrite (id call : Nat) (v : Byte) : PeripheralWrite

/-- `SD_RESPONSE` (`92_eei_decisions.md` D30, OPEN): the bytes the SD consumer of region `id` queues for the
completed byte `b` after the bytes `history`, when no scripted answer is left (`47_spi_slave.md` R252; log entry
13, safe). -/
opaque Config.sdResponse (id : Nat) (b : Byte) (history : List Byte) : List Byte

/-- The outputs of an SPI slave, readable at any time (`47_spi_slave.md` R243). -/
structure SpiOutputs where
  done      : Bool
  mosiShift : Byte
  misoLine  : Bool
  deriving DecidableEq, Repr, Inhabited

/-- What a bridge does in one bus access: the port bytes it gives to `SpiWrite`, in order, and the byte a read of it
returns (the model's own form of a given `SPI_BINDING`, log entry 16). -/
structure BridgeAnswer where
  ports : List Byte
  value : Byte
  deriving DecidableEq, Repr, Inhabited

/-- One past bus access to a bridge: the offset, the byte written if it was a write, and the slave's outputs before the
access and after each port byte (log entry 16). -/
structure BridgeAccess where
  offset  : Nat
  written : Option Byte
  seen    : List SpiOutputs
  deriving DecidableEq, Repr, Inhabited

/-- The argument `SPI_BINDING` (`00_scope.md` R7, `92_eei_decisions.md` D25, OPEN): the default one-byte region of
`47_spi_slave.md` R254, or a bridge of the platform's own, such as a VIA, of this size, with the answers scripted for its
next accesses (log entry 16). -/
inductive SpiBinding where
  | region
  | bridge (size : BitVec 16) (answers : List BridgeAnswer)
  deriving DecidableEq, Repr, Inhabited

/-- The port bytes bridge `id` gives to `SpiWrite` in an access after the accesses `history`, when no scripted answer is
left (`SPI_BINDING`, `92_eei_decisions.md` D25, OPEN; log entry 16, safe). -/
opaque Config.bridgePorts (id : Nat) (history : List BridgeAccess) (offset : Nat) (written : Option Byte)
  (outputs : SpiOutputs) : List Byte

/-- The byte a read of bridge `id` returns after the accesses `history`, the slave having shown the outputs `seen`, when
no scripted answer is left (`SPI_BINDING`, `92_eei_decisions.md` D25, OPEN; log entry 16, safe). -/
opaque Config.bridgeValue (id : Nat) (history : List BridgeAccess) (offset : Nat) (seen : List SpiOutputs) : Byte

end Sys2Proof
end

