-- ==== Sys2Proof/Machine/State.lean ====
section
/-! DEFINITION. The state of the whole block (CPU, BUS, ACIA, SPI, DBG, host side) as plain data, the reasons a step
can stop, and the state after reset. -/

namespace Sys2Proof.Machine

open Sys2Proof

/-- The six stored flags of `SR` (`10_state.md` R24). Bits 5 and 4 are the constants 1 and 0 and are not stored
(`10_state.md` R25, which allows exactly this; log entry 7). -/
structure Flags where
  n : Bool
  v : Bool
  d : Bool
  i : Bool
  z : Bool
  c : Bool
  deriving DecidableEq, Repr

/-- Direction of a bus access, the `kind` of `60_exceptions.md` R292. -/
inductive Access where
  | read
  | write
  deriving DecidableEq, Repr

/-- The context a fault records: the step's `PC` and opcode byte, where there is one (`60_exceptions.md` R291,
R292). `reset()` has neither, a faulting opcode fetch has no opcode yet. -/
structure Context where
  pc     : Option Addr
  opcode : Option Byte
  deriving DecidableEq, Repr

/-- The fatal faults of `60_exceptions.md` R292. Each is terminal; no 6502 code observes it (R291). The outcome
carries the cause and no registers or memory, which R291 leaves unspecified for a faulted machine (log entry 8). -/
inductive Fault where
  /-- `UnmappedAddressError(addr, kind)`: raised by a bus read or write that finds no binding (`20_memory.md` R53,
  R54). Safe: the hardware stops too. -/
  | unmappedAddress (addr : Addr) (kind : Access) (context : Context)
  /-- `RomWriteError(addr, v)`: raised by a bus write to a ROM device when `ROM_WRITE = fault` (`20_memory.md` R56).
  Safe: the hardware stops too. -/
  | romWrite (addr : Addr) (value : Byte) (context : Context)
  /-- `UnknownOpcode(pc, byte)`: raised by decode for one of the 105 undefined bytes (`30_encoding.md` R99). Safe:
  the hardware stops too. -/
  | unknownOpcode (pc : Addr) (byte : Byte)
  deriving DecidableEq, Repr

/-- The refusals: the model gives the step no meaning. -/
inductive Refusal where
  /-- An instruction without a meaning yet, raised by its arm of exec alone. Safe. -/
  | notModelled (mnemonic : String)
  /-- `ADC` or `SBC` with `D = 1` under `DECIMAL_ARITH = refuse`: the refusal that `42_arithmetic.md` R141, R143 and
  `60_exceptions.md` R292 ask for. Safe. -/
  | decimalArithmetic (mnemonic : Mnemonic)
  deriving DecidableEq, Repr

/-- RAM and ROM contents as cells keyed by bus address (log entry 6), in the canonical form of Memory.wf. -/
abbrev Memory := List Host.Cell

/-- The external peripheral of an ACIA (`46_acia.md` R212): its constant capability, and the model's own record of
it: an identity, the answers scripted for its next calls, the number of calls made, the bytes offered to it so far,
oldest first (log entry 12). -/
structure Peripheral where
  id           : Nat
  capability   : Capability
  readAnswers  : List PeripheralRead
  writeAnswers : List PeripheralWrite
  calls        : Nat
  sent         : List Byte
  deriving DecidableEq, Repr

/-- The ACIA's state (`46_acia.md` R210). -/
structure Acia where
  rx           : Byte
  tx           : Byte
  command      : Byte
  control      : Byte
  rxFull       : Bool
  txEmpty      : Bool
  overrun      : Bool
  rxIrqEnabled : Bool
  txIrqEnabled : Bool
  peripheral   : Peripheral
  deriving DecidableEq, Repr

/-- The SPI slave's state (`47_spi_slave.md` R240, R241), with the consumer's history of completed bytes (R252,
oldest first) and the model's own script of the consumer's answers (log entry 13). -/
structure Spi where
  id        : Nat
  mosiShift : Byte
  misoShift : Byte
  bitCount  : Fin 8
  done      : Bool
  prevClk   : Bool
  misoLine  : Bool
  lastPort  : Byte
  misoQueue : List Byte
  received  : List Byte
  responses : List (List Byte)
  deriving DecidableEq, Repr

/-- An SPI slave reached through a bridge of the platform's own, a `SPI_BINDING` other than the default
(`47_spi_slave.md` R254, `92_eei_decisions.md` D25): its size, the slave, and the model's own script and record of the
bridge's accesses, oldest first (log entry 16). -/
structure SpiBridge where
  size    : BitVec 16
  slave   : Spi
  answers : List BridgeAnswer
  history : List BridgeAccess
  deriving DecidableEq, Repr

/-- A device behind the bus, of one of the kinds of `20_memory.md` R51; an SPI slave is reached as its one-byte region
or through a bridge (`47_spi_slave.md` R254). The bytes of RAM and ROM stand in the state's memory (log entry 6). -/
inductive Device where
  | ram (size : BitVec 16)
  | rom (size : BitVec 16)
  | acia (a : Acia)
  | spi (p : Spi)
  | bridge (g : SpiBridge)
  deriving DecidableEq, Repr

/-- One entry of the binding table (`10_state.md` R31). Its size is the device's constant `size()`
(`20_memory.md` R51, R52). -/
structure Binding where
  name   : String
  base   : Addr
  device : Device
  deriving DecidableEq, Repr

/-- DBG's address trigger (`48_breakpoint_engine.md` R260). -/
structure AddressTrigger where
  enabled : Bool
  value   : Addr
  oneShot : Bool
  deriving DecidableEq, Repr

/-- DBG's instruction trigger; the text is the upper-cased argument, a mnemonic or not (`48_breakpoint_engine.md`
R260, R272). -/
structure MnemonicTrigger where
  enabled  : Bool
  mnemonic : Text
  deriving DecidableEq, Repr

/-- One of DBG's register triggers (`48_breakpoint_engine.md` R260). -/
structure RegisterTrigger where
  enabled : Bool
  value   : Byte
  deriving DecidableEq, Repr

/-- DBG's state (`48_breakpoint_engine.md` R260). -/
structure Dbg where
  bpAddr      : AddressTrigger
  bpInstr     : MnemonicTrigger
  bpA         : RegisterTrigger
  bpX         : RegisterTrigger
  bpY         : RegisterTrigger
  freeRun     : Bool
  lastCommand : Option Text
  deriving DecidableEq, Repr

/-- A monitor attached to the CPU's hook (`10_state.md` R30): DBG, or another observer, which changes nothing. -/
inductive Monitor where
  | dbg
  | observer (id : Nat)
  deriving DecidableEq, Repr

/-- The CPU's run state (`10_state.md` R28). Paused holds the instruction whose hook blocks, the monitors still to be
called for it (`48_breakpoint_engine.md` R265), and whether a hook of this step has already issued `exit`
(`30_encoding.md` R80). -/
inductive RunState where
  | running
  | paused (pending : Instr) (rest : List Monitor) (exitIssued : Bool)
  | halted (status : Int)
  | faulted (cause : Fault)
  deriving DecidableEq, Repr

/-- A move of the agenda between two CPU steps (log entry 10): the CPU's own, a host halt signal with its status
(`60_exceptions.md` R300), or a receive event at the ACIA whose range holds `addr` (`46_acia.md` R226). -/
inductive Move where
  | cpu
  | halt (status : Int)
  | receive (addr : Addr) (b : Byte)
  deriving DecidableEq, Repr

/-- One of the three registers DBG can compare (`48_breakpoint_engine.md` R260). -/
inductive IndexedRegister where
  | A
  | X
  | Y
  deriving DecidableEq, Repr

/-- Why a command line was rejected (`48_breakpoint_engine.md` R279, R281). -/
inductive InputError where
  | unknownCommand
  | ambiguousSymbol
  | badArgument
  deriving DecidableEq, Repr

/-- What the block shows its host, the model's own record (log entry 17): the notices of
`48_breakpoint_engine.md` R263, the display at a pause (R265), the result of a read command with its number of bytes
(R278), the help request (R280), a reported error (R281), and the call of another observer (`10_state.md` R30). -/
inductive Output where
  | addressNotice (value : Addr)
  | instructionNotice (mnemonic : Text)
  | registerNotice (r : IndexedRegister) (value : Byte)
  | paused (pc : Addr) (a x y sp sr : Byte) (record : Instruction) (labels : List Text)
  | readResult (bytes : Nat) (addr : Addr) (value : Nat)
  | help
  | inputError (e : InputError)
  | observed (id : Nat) (record : Instruction)
  deriving DecidableEq, Repr

/-- The whole machine. CPU registers: `10_state.md` R20 to R24; run state, halt slot, monitors: R28 to R30; binding
table and memory: R31, R32; debugger: `48_breakpoint_engine.md` R260, with the command lines the host will give
(R265); the agenda, the trace and the parameters are the model's own (log entries 10, 17, 1). -/
structure State where
  pc         : Addr
  a          : Byte
  x          : Byte
  y          : Byte
  sp         : Byte
  flags      : Flags
  run        : RunState
  haltStatus : Option Int
  monitors   : List Monitor
  bus        : List Binding
  mem        : Memory
  dbg        : Dbg
  commands   : List Text
  agenda     : List Move
  trace      : List Output
  params     : Params
  deriving DecidableEq, Repr

/-- An ACIA in its power-on state, the state after its own `reset()` (`10_state.md` R34, `46_acia.md` R214), with
peripheral `p`. -/
def Acia.powerOn (p : Peripheral) : Acia where
  rx           := 0x00#8
  tx           := 0x00#8
  command      := 0x00#8
  control      := 0x00#8
  rxFull       := false
  txEmpty      := true
  overrun      := false
  rxIrqEnabled := false
  txIrqEnabled := false
  peripheral   := p

/-- An SPI slave at construction with the SD power-up seed (`10_state.md` R34, `47_spi_slave.md` R241). -/
def Spi.powerOn (id : Nat) (responses : List (List Byte)) : Spi where
  id        := id
  mosiShift := 0x00#8
  misoShift := 0x00#8
  bitCount  := 0
  done      := false
  prevClk   := false
  misoLine  := true
  lastPort  := 0x00#8
  misoQueue := [0x00#8, 0x00#8, 0xFF#8]
  received  := []
  responses := responses

/-- DBG at creation: every trigger disabled, free-run clear, no last command (`10_state.md` R34,
`48_breakpoint_engine.md` R260). The values of a disabled trigger are a DESIGN CHOICE (log entry 3). -/
def Dbg.powerOn : Dbg where
  bpAddr      := ⟨false, 0x0000#16, false⟩
  bpInstr     := ⟨false, []⟩
  bpA         := ⟨false, 0x00#8⟩
  bpX         := ⟨false, 0x00#8⟩
  bpY         := ⟨false, 0x00#8⟩
  freeRun     := false
  lastCommand := none

/-- The platform's peripheral in State.reset: bidirectional, nothing scripted, so that every answer is a free value
of Config (DESIGN CHOICE, log entry 4). -/
def Peripheral.unscripted (id : Nat) : Peripheral where
  id           := id
  capability   := .bidirectional
  readAnswers  := []
  writeAnswers := []
  calls        := 0
  sent         := []

/-- The bus map of State.reset: map P of `95_test_vectors.md` section 4 (RAM, ACIA, SPI region, ROM), a DESIGN CHOICE
since `BUS_MAP` is the platform's (`92_eei_decisions.md` D12; log entry 4). -/
def State.resetBus : List Binding :=
  [ ⟨"ram", 0x0000#16, .ram 0x8000#16⟩,
    ⟨"acia", 0x8000#16, .acia (Acia.powerOn (Peripheral.unscripted 0x8000))⟩,
    ⟨"spi", 0x8010#16, .spi (Spi.powerOn 0x8010 [])⟩,
    ⟨"rom", 0xF000#16, .rom 0x1000#16⟩ ]

/-- The machine right after power-on and `reset()` (`10_state.md` R34, `70_reset_and_hazards.md` R320, R321): `PC`
is the word at `RESET_VECTOR` (0x0000 on this map, whose blank ROM lists nothing), `I = 1`. `A X Y SP N V D Z C` are 0 by DESIGN CHOICE (log entry 3, unsafe), the map is log entry 4, RAM that nothing
has written reads 0x00 by DESIGN CHOICE (log entry 5, unsafe). That DBG is attached and no other monitor is a DESIGN
CHOICE (log entry 27, unsafe): R30 and R321 leave the list to configuration. The agenda and the command lines are empty by DESIGN CHOICE
(log entry 25, unsafe): in a run from here the host places no halt and types nothing, and the peripheral delivers no
receive event, which `46_acia.md` R226 would let it do. -/
def State.reset : State where
  pc         := 0x0000#16
  a          := 0x00#8
  x          := 0x00#8
  y          := 0x00#8
  sp         := 0x00#8
  flags      := ⟨false, false, false, true, false, false⟩
  run        := .running
  haltStatus := none
  monitors   := [.dbg]
  bus        := State.resetBus
  mem        := []
  dbg        := Dbg.powerOn
  commands   := []
  agenda     := []
  trace      := []
  params     := Params.default

end Sys2Proof.Machine
end

