-- ==== Sys2Proof/Machine/Acia.lean ====
section
/-! DEFINITION. The ACIA: its four registers, its reset, its peripheral port and the receive event
(`46_acia.md`). -/

namespace Sys2Proof.Machine

open Sys2Proof

/-- The four registers at offsets 0 to 3 (`46_acia.md` R211). -/
inductive AciaRegister where
  | data
  | status
  | command
  | control
  deriving DecidableEq, Repr

/-- The register at a device-local offset (`46_acia.md` R211); the size is 4, so the BUS gives no offset above 3. -/
def AciaRegister.ofOffset : Nat → AciaRegister
  | 0 => .data
  | 1 => .status
  | 2 => .command
  | _ => .control

/-- The capability declares reading (`46_acia.md` R212). -/
def canRead : Capability → Bool
  | .read | .bidirectional => true
  | .none | .write => false

/-- The capability declares writing (`46_acia.md` R212). -/
def canWrite : Capability → Bool
  | .write | .bidirectional => true
  | .none | .read => false

/-- Ask the peripheral to `read()`: the next scripted answer, or the free value of this call (`46_acia.md` R212; log
entry 12). -/
def Peripheral.read (p : Peripheral) : PeripheralRead × Peripheral :=
  match p.readAnswers with
  | r :: rest => (r, { p with readAnswers := rest, calls := p.calls + 1 })
  | [] => (Config.peripheralRead p.id p.calls, { p with calls := p.calls + 1 })

/-- Offer a byte to the peripheral with `write(v)`: the next scripted answer, or the free value of this call
(`46_acia.md` R212; log entry 12). The byte is recorded as offered. -/
def Peripheral.write (p : Peripheral) (v : Byte) : PeripheralWrite × Peripheral :=
  match p.writeAnswers with
  | r :: rest => (r, { p with writeAnswers := rest, calls := p.calls + 1, sent := p.sent ++ [v] })
  | [] => (Config.peripheralWrite p.id p.calls v, { p with calls := p.calls + 1, sent := p.sent ++ [v] })

/-- Write of the command register (`46_acia.md` R220). -/
def Acia.writeCommand (ps : Params) (d : Acia) (v : Byte) : Acia :=
  { d with
    command := v
    rxIrqEnabled := v &&& ps.aciaCmdRxIrqMask != 0#8
    txIrqEnabled := v &&& ps.aciaCmdTxIrqMask != 0#8 }

/-- Write of the control register (`46_acia.md` R221). -/
def Acia.writeControl (d : Acia) (v : Byte) : Acia := { d with control := v }

/-- The ACIA's own `reset()` (`46_acia.md` R214). The peripheral is not told. -/
def Acia.reset (ps : Params) (d : Acia) : Acia :=
  Acia.writeControl
    (Acia.writeCommand ps
      { d with rx := 0x00#8, tx := 0x00#8, rxFull := false, overrun := false, txEmpty := true } 0x00#8)
    0x00#8

/-- The pull of a data read: when no unread byte is held and the peripheral declares reading, one byte is asked for;
`nothing` and `error` leave `rx` (`46_acia.md` R215, R223). -/
def Acia.pull (d : Acia) : Acia :=
  if !d.rxFull && canRead d.peripheral.capability then
    match d.peripheral.read with
    | (.got v, p) => { d with rx := v, peripheral := p }
    | (.nothing, p) => { d with peripheral := p }
    | (.error, p) => { d with peripheral := p }
  else d

/-- Read of the data register: the pull, then both flags cleared whatever happened; the byte is `rx`
(`46_acia.md` R215). -/
def Acia.readData (d : Acia) : Byte × Acia :=
  (d.pull.rx, { d.pull with rxFull := false, overrun := false })

/-- The status byte, synthesised from the three flags (`46_acia.md` R216). -/
def Acia.status (ps : Params) (d : Acia) : Byte :=
  bitAt d.overrun ps.aciaOverrunBit ||| bitAt d.rxFull ps.aciaRxFullBit ||| bitAt d.txEmpty ps.aciaTxEmptyBit

/-- Write of the data register: the byte is latched, `txEmpty` falls, and rises again when a peripheral that declares
writing accepts the byte or reports an error (`46_acia.md` R218, R223). -/
def Acia.writeData (d : Acia) (v : Byte) : Acia :=
  if canWrite d.peripheral.capability then
    match d.peripheral.write v with
    | (.accepted, p) => { d with tx := v, txEmpty := true, peripheral := p }
    | (.error, p) => { d with tx := v, txEmpty := true, peripheral := p }
    | (.rejected, p) => { d with tx := v, txEmpty := false, peripheral := p }
  else { d with tx := v, txEmpty := false }

/-- Device `read(off)` (`46_acia.md` R211, R215 to R217): the byte and the ACIA after it. -/
def Acia.read (ps : Params) (d : Acia) : AciaRegister → Byte × Acia
  | .data => d.readData
  | .status => (d.status ps, d)
  | .command => (d.command, d)
  | .control => (d.control, d)

/-- Device `write(off, v)` (`46_acia.md` R211, R218 to R221). -/
def Acia.write (ps : Params) (d : Acia) (v : Byte) : AciaRegister → Acia
  | .data => d.writeData v
  | .status => d.reset ps
  | .command => d.writeCommand ps v
  | .control => d.writeControl v

/-- The receive event `receive(b)` (`46_acia.md` R226). -/
def Acia.receive (d : Acia) (b : Byte) : Acia :=
  { d with overrun := d.overrun || d.rxFull, rx := b, rxFull := true }

end Sys2Proof.Machine
end

