-- ==== Sys2Proof/Machine/Flags.lean ====
section
/-! DEFINITION. The status register and every flag computation of the instruction set, binary and decimal. -/

namespace Sys2Proof.Machine

open Sys2Proof

/-- The byte `SR`: `N V 1 0 D I Z C` from bit 7 down (`10_state.md` R24, R25). -/
def Flags.toByte (f : Flags) : Byte :=
  bitAt f.n 7 ||| bitAt f.v 6 ||| 0x20#8 ||| bitAt f.d 3 ||| bitAt f.i 2 ||| bitAt f.z 1 ||| bitAt f.c 0

/-- The flags of a pulled byte, bits 5 and 4 discarded (`41_stack.md` R135, `44_control_flow.md` R194). -/
def Flags.ofByte (b : Byte) : Flags where
  n := bit b 7
  v := bit b 6
  d := bit b 3
  i := bit b 2
  z := bit b 1
  c := bit b 0

/-- The byte `PHP` and `BRK` push: `SR | 0x30` (`41_stack.md` R133, `44_control_flow.md` R193). -/
def Flags.pushed (f : Flags) : Byte := f.toByte ||| 0x30#8

/-- `setNZ(v)` (`00_scope.md` R12). -/
def Flags.setNZ (f : Flags) (v : Byte) : Flags := { f with n := bit v 7, z := v == 0#8 }

/-- The flags of a compare of a register with `m`: `C` is the unsigned not-less, `Z` equality, `N` bit 7 of the
wrapped difference (`42_arithmetic.md` R145 to R147). -/
def Flags.compare (f : Flags) (r m : Byte) : Flags :=
  { f with c := decide (m.toNat ≤ r.toNat), z := r == m, n := bit (r - m) 7 }

/-- The flags of `BIT`: `Z` from the and, `N` and `V` from bits 7 and 6 of the operand (`43_logic_shift.md`
R164). -/
def Flags.bitTest (f : Flags) (a m : Byte) : Flags := { f with z := a &&& m == 0#8, n := bit m 7, v := bit m 6 }

/-- Binary addition with carry: the result and the flags `N V Z C` (`42_arithmetic.md` R141). -/
def adcBinary (f : Flags) (a m : Byte) : Byte × Flags :=
  let t := a.toNat + m.toNat + f.c.toNat
  let r := BitVec.ofNat 8 t
  (r, ({ f with c := decide (0xFF < t), v := bit ((a ^^^ r) &&& (m ^^^ r)) 7 }).setNZ r)

/-- Binary subtraction with borrow, which is binary addition of the complement (`42_arithmetic.md` R143). -/
def sbcBinary (f : Flags) (a m : Byte) : Byte × Flags := adcBinary f a (m ^^^ 0xFF#8)

/-- The low-nibble sum of decimal addition with its decimal correction, `al` of `42_arithmetic.md` R142. -/
def adcLowDigit (f : Flags) (a m : Byte) : Nat :=
  let al := (a &&& 0x0F#8).toNat + (m &&& 0x0F#8).toNat + f.c.toNat
  if 0x0A ≤ al then (al + 0x06) % 16 + 0x10 else al

/-- `adcDecimal(M)`: the NMOS decimal addition with its flags (`42_arithmetic.md` R142). -/
def adcDecimal (f : Flags) (a m : Byte) : Byte × Flags :=
  let al := adcLowDigit f a m
  let s := (a &&& 0xF0#8).toNat + (m &&& 0xF0#8).toNat + al
  let ss : Int := s8 (a &&& 0xF0#8) + s8 (m &&& 0xF0#8) + al
  let t := if 0xA0 ≤ s then s + 0x60 else s
  (BitVec.ofNat 8 t,
    { f with
      n := s.testBit 7
      v := decide (ss < -128) || decide (127 < ss)
      c := decide (0x100 ≤ t)
      z := (a.toNat + m.toNat + f.c.toNat) % 256 == 0 })

/-- `sbcDecimal(a0, M, c0)`: the accumulator of the NMOS decimal subtraction (`42_arithmetic.md` R144). -/
def sbcDecimal (f : Flags) (a m : Byte) : Byte :=
  let al0 : Int := (a &&& 0x0F#8).toNat - (m &&& 0x0F#8).toNat + f.c.toNat - 1
  let al : Int := if al0 < 0 then (al0 - 0x06) % 16 - 0x10 else al0
  let s0 : Int := (a &&& 0xF0#8).toNat - (m &&& 0xF0#8).toNat + al
  let s : Int := if s0 < 0 then s0 - 0x60 else s0
  BitVec.ofInt 8 s

/-- The sum is decimal: `D = 1` and the parameter selects the NMOS algorithm (`42_arithmetic.md` R141, R143). -/
def decimalMode (ps : Params) (f : Flags) : Bool := f.d && ps.decimalArith == .bcdNmos

/-- The model is to refuse: `D = 1` and `DECIMAL_ARITH = refuse` (`42_arithmetic.md` R141, R143). -/
def decimalRefused (ps : Params) (f : Flags) : Bool := f.d && ps.decimalArith == .refuse

/-- `ADC`: result and flags by `D` and `DECIMAL_ARITH` (`42_arithmetic.md` R141, R142). -/
def adcResult (ps : Params) (f : Flags) (a m : Byte) : Byte × Flags :=
  if decimalMode ps f then adcDecimal f a m else adcBinary f a m

/-- `SBC`: the flags are those of the binary computation in every mode; the accumulator is decimal in decimal mode
(`42_arithmetic.md` R143, R144). -/
def sbcResult (ps : Params) (f : Flags) (a m : Byte) : Byte × Flags :=
  if decimalMode ps f then (sbcDecimal f a m, (sbcBinary f a m).2) else sbcBinary f a m

/-- `ASL`: result and the bit shifted out (`43_logic_shift.md` R165). -/
def shiftLeft (m : Byte) : Byte × Bool := (m <<< 1, bit m 7)

/-- `LSR`: result and the bit shifted out (`43_logic_shift.md` R166). -/
def shiftRight (m : Byte) : Byte × Bool := (m >>> 1, bit m 0)

/-- `ROL`: result with the old carry in bit 0, and the bit shifted out (`43_logic_shift.md` R167). -/
def rotateLeft (c : Bool) (m : Byte) : Byte × Bool := (m <<< 1 ||| bitAt c 0, bit m 7)

/-- `ROR`: result with the old carry in bit 7, and the bit shifted out (`43_logic_shift.md` R168). -/
def rotateRight (c : Bool) (m : Byte) : Byte × Bool := (m >>> 1 ||| bitAt c 7, bit m 0)

end Sys2Proof.Machine
end

