-- ==== Sys2Proof/Machine/Memory.lean ====
section
/-! DEFINITION. RAM and ROM contents by bus address: reading, writing and the canonical form (`20_memory.md` R55,
R56; log entries 5 and 6). -/

namespace Sys2Proof.Machine

open Sys2Proof

/-- What a byte that is not listed reads as: RAM that nothing has written and unlisted ROM bytes (DESIGN CHOICE, log
entry 5, unsafe: `10_state.md` R32 makes power-on RAM a draw). -/
def Memory.blank : Byte := 0x00#8

/-- The byte under key `k`: the first cell with that key, else the blank byte. -/
def Memory.readAt : Memory → Nat → Byte
  | [], _ => Memory.blank
  | (a, v) :: rest, k => if a = k then v else Memory.readAt rest k

/-- The RAM or ROM byte at a bus address (`20_memory.md` R55, R56). No effect on any device. -/
def Memory.read (m : Memory) (a : Addr) : Byte := m.readAt a.toNat

/-- The memory without the cells of key `k`. -/
def Memory.erase (k : Nat) : Memory → Memory
  | [] => []
  | (a, v) :: rest => if a = k then Memory.erase k rest else (a, v) :: Memory.erase k rest

/-- The memory with a cell for key `k` put before the first greater key. -/
def Memory.insert (k : Nat) (v : Byte) : Memory → Memory
  | [] => [(k, v)]
  | (a, w) :: rest => if k < a then (k, v) :: (a, w) :: rest else (a, w) :: Memory.insert k v rest

/-- Write a byte at a bus address (`20_memory.md` R55), keeping the canonical form: a blank byte is not listed. -/
def Memory.write (m : Memory) (a : Addr) (v : Byte) : Memory :=
  if v = Memory.blank then m.erase a.toNat else (m.erase a.toNat).insert a.toNat v

/-- Write a list of bytes at ascending addresses from `a`, wrapping mod 65536 (loading an image or RAM contents). -/
def Memory.load (m : Memory) (a : Addr) : List Byte → Memory
  | [] => m
  | v :: rest => (m.write a v).load (a + 1#16) rest

/-- The canonical form from key `low` on: keys strictly rising, within the 16-bit address space, no blank cell. -/
def Memory.wfFrom : Nat → Memory → Bool
  | _, [] => true
  | low, (a, v) :: rest => decide (low ≤ a) && decide (a < 65536) && v != Memory.blank && Memory.wfFrom (a + 1) rest

/-- The canonical form of a memory: equal memories are equal lists. -/
def Memory.wf (m : Memory) : Bool := Memory.wfFrom 0 m

end Sys2Proof.Machine
end

