-- ==== Sys2Proof/Machine/Spi.lean ====
section
/-! DEFINITION. The SPI shift-register slave, the MISO byte queue and the SD consumer's hand-over
(`47_spi_slave.md`). -/

namespace Sys2Proof.Machine

open Sys2Proof

/-- The SD consumer's answer to the completed byte `b`: nothing while only 0xFF bytes have been received, else the
next scripted list, else the free value (`47_spi_slave.md` R252, `92_eei_decisions.md` D30; log entry 13). -/
def Spi.response (p : Spi) (b : Byte) : List Byte :=
  if b = 0xFF#8 ∧ p.received.all (· == 0xFF#8) = true then []
  else
    match p.responses with
    | r :: _ => r
    | [] => Config.sdResponse p.id b p.received

/-- The script after an answer to `b`: an idle 0xFF byte uses none of it. -/
def Spi.responsesAfter (p : Spi) (b : Byte) : List (List Byte) :=
  if b = 0xFF#8 ∧ p.received.all (· == 0xFF#8) = true then p.responses else p.responses.drop 1

/-- The hand-over `consume(b)`: the answer goes to the end of the queue (`47_spi_slave.md` R252). -/
def Spi.consume (p : Spi) (b : Byte) : Spi :=
  { p with
    misoQueue := p.misoQueue ++ p.response b
    received := p.received ++ [b]
    responses := p.responsesAfter b }

/-- The first edge of a byte: `done` and `mosiShift` are cleared and the next outgoing byte, or the filler 0xFF, is
loaded (`47_spi_slave.md` R246). -/
def Spi.startByte (p : Spi) : Spi :=
  match p.misoQueue with
  | [] => { p with done := false, mosiShift := 0x00#8, misoShift := 0xFF#8 }
  | b :: rest => { p with done := false, mosiShift := 0x00#8, misoShift := b, misoQueue := rest }

/-- Exchange one bit, most significant first both ways (`47_spi_slave.md` R244, R248): the counter is not yet
advanced. -/
def Spi.exchange (p : Spi) (mosi : Bool) : Spi :=
  { p with
    misoLine := bit p.misoShift 7
    misoShift := p.misoShift <<< 1
    mosiShift := p.mosiShift <<< 1 ||| bitAt mosi 0 }

/-- Advance the bit counter; the eighth bit completes the byte and hands it over (`47_spi_slave.md` R244, R247). -/
def Spi.countBit (p : Spi) : Spi :=
  if p.bitCount = 7 then { p with bitCount := 0, done := true }.consume p.mosiShift
  else { p with bitCount := p.bitCount + 1 }

/-- A rising edge with the data-in level `mosi` (`47_spi_slave.md` R244 to R247). -/
def Spi.clockEdge (p : Spi) (mosi : Bool) : Spi :=
  ((if p.bitCount = 0 then p.startByte else p).exchange mosi).countBit

/-- The write of a port byte makes a clock edge: its clock bit is 1 and the last one was 0 (`47_spi_slave.md`
R245). -/
def Spi.risingEdge (ps : Params) (p : Spi) (port : Byte) : Bool := !p.prevClk && bit port ps.spiSclkBit

/-- `SpiWrite(p)`: whether it made an edge, and the slave after it (`47_spi_slave.md` R243, R244). -/
def Spi.write (ps : Params) (p : Spi) (port : Byte) : Bool × Spi :=
  let q := { p with lastPort := port, prevClk := bit port ps.spiSclkBit }
  if p.risingEdge ps port then (true, q.clockEdge (bit port ps.spiMosiBit)) else (false, q)

/-- The port read of the default bus binding: the last port byte with the MISO bit replaced by the MISO line
(`47_spi_slave.md` R254; log entry 16). -/
def Spi.readPort (ps : Params) (p : Spi) : Byte :=
  p.lastPort &&& ~~~(bitAt true ps.spiMisoBit) ||| bitAt p.misoLine ps.spiMisoBit

/-- What a slave shows (`47_spi_slave.md` R243). -/
def Spi.outputs (p : Spi) : SpiOutputs := ⟨p.done, p.mosiShift, p.misoLine⟩

/-- `SpiWrite` of each port byte in order: the outputs before the first and after each, and the slave after all. -/
def Spi.drive (ps : Params) (p : Spi) : List Byte → List SpiOutputs × Spi
  | [] => ([p.outputs], p)
  | b :: rest => (p.outputs :: ((p.write ps b).2.drive ps rest).1, ((p.write ps b).2.drive ps rest).2)

/-- The port bytes of a bridge's next access: the script's, else the free ones of Config (log entry 16). -/
def SpiBridge.ports (g : SpiBridge) (offset : Nat) (written : Option Byte) : List Byte :=
  match g.answers with
  | r :: _ => r.ports
  | [] => Config.bridgePorts g.slave.id g.history offset written g.slave.outputs

/-- The byte a read of a bridge returns once the slave has shown `seen` (log entry 16). -/
def SpiBridge.value (g : SpiBridge) (offset : Nat) (seen : List SpiOutputs) : Byte :=
  match g.answers with
  | r :: _ => r.value
  | [] => Config.bridgeValue g.slave.id g.history offset seen

/-- One bus access to a bridge, `written` being the byte of a write: it gives its port bytes to the slave, whose own rules
hold (`47_spi_slave.md` R254), and answers a byte, which a write drops. -/
def SpiBridge.access (ps : Params) (g : SpiBridge) (offset : Nat) (written : Option Byte) : Byte × SpiBridge :=
  let r := g.slave.drive ps (g.ports offset written)
  (g.value offset r.1,
    { g with slave := r.2, answers := g.answers.drop 1, history := g.history ++ [⟨offset, written, r.1⟩] })

end Sys2Proof.Machine
end

