-- ==== Sys2Proof/Machine/Ops.lean ====
section
/-! DEFINITION. The named operations the meanings are made of: register and state updates, bus transactions, the
stack, taking the trap and returning from it, and how an operation ends a step. -/

namespace Sys2Proof.Machine

open Sys2Proof

/-- `pc <- target` (`00_scope.md` R12). -/
def State.setPc (s : State) (v : Addr) : State := { s with pc := v }

/-- `A <- v`. -/
def State.setA (s : State) (v : Byte) : State := { s with a := v }

/-- `X <- v`. -/
def State.setX (s : State) (v : Byte) : State := { s with x := v }

/-- `Y <- v`. -/
def State.setY (s : State) (v : Byte) : State := { s with y := v }

/-- `SP <- v`. -/
def State.setSp (s : State) (v : Byte) : State := { s with sp := v }

/-- The flags replaced. -/
def State.setFlags (s : State) (f : Flags) : State := { s with flags := f }

/-- `setNZ(v)` on the machine's flags (`00_scope.md` R12). -/
def State.setNZ (s : State) (v : Byte) : State := s.setFlags (s.flags.setNZ v)

/-- `C <- c` on the machine's flags (`00_scope.md` R12). -/
def State.setC (s : State) (c : Bool) : State := s.setFlags { s.flags with c := c }

/-- The binding table with a device's new state in it. -/
def State.setBus (s : State) (b : List Binding) : State := { s with bus := b }

/-- The RAM and ROM contents replaced. -/
def State.setMem (s : State) (m : Memory) : State := { s with mem := m }

/-- The run state replaced. -/
def State.setRun (s : State) (r : RunState) : State := { s with run := r }

/-- DBG's state replaced. -/
def State.setDbg (s : State) (d : Dbg) : State := { s with dbg := d }

/-- One more output to the host (log entry 17). -/
def State.emit (s : State) (o : Output) : State := { s with trace := s.trace ++ [o] }

/-- The status register as a byte (`10_state.md` R24, R25). -/
def State.sr (s : State) : Byte := s.flags.toByte

/-- A bus fault as the BUS raises it (`20_memory.md` R53, R54, R56), without the step's context. -/
inductive BusError where
  | unmapped (addr : Addr) (kind : Access)
  | romWrite (addr : Addr) (value : Byte)
  deriving DecidableEq, Repr

/-- The fault with the step's context (`60_exceptions.md` R292). -/
def BusError.toFault (c : Context) : BusError → Fault
  | .unmapped a k => .unmappedAddress a k c
  | .romWrite a v => .romWrite a v c

/-- The result of an operation: a value and the state after it, or a bus fault with the state at the faulting access,
whose earlier effects stay written (`60_exceptions.md` R291, R294). -/
inductive Res (α : Type) where
  | ok (value : α) (state : State)
  | fault (error : BusError) (state : State)
  deriving DecidableEq, Repr

/-- Sequencing: the second operation runs on the state the first leaves; a fault ends both (`60_exceptions.md`
R294). -/
def Res.bind {α β : Type} (r : Res α) (k : α → State → Res β) : Res β :=
  match r with
  | .ok v s => k v s
  | .fault e s => .fault e s

/-- The value of a completed operation replaced by a function of it. -/
def Res.map {α β : Type} (f : α → β) (r : Res α) : Res β := r.bind fun v s => .ok (f v) s

/-- The operation completed. -/
def Res.completes {α : Type} : Res α → Bool
  | .ok _ _ => true
  | .fault _ _ => false

/-- `size()` of a device (`20_memory.md` R51, R55, R56; `46_acia.md` R211; `47_spi_slave.md` R254). -/
def Device.size : Device → Nat
  | .ram n => n.toNat
  | .rom n => n.toNat
  | .acia _ => 4
  | .spi _ => 1
  | .bridge g => g.size.toNat

/-- The size of a binding (`10_state.md` R31, `20_memory.md` R52). -/
def Binding.size (b : Binding) : Nat := b.device.size

/-- The binding's range `[base, base+size)` holds the address (`20_memory.md` R53). -/
def Binding.contains (b : Binding) (a : Addr) : Bool :=
  decide (b.base.toNat ≤ a.toNat) && decide (a.toNat < b.base.toNat + b.size)

/-- The binding whose range contains the address (`20_memory.md` R53). -/
def findBinding (bus : List Binding) (a : Addr) : Option Binding := bus.find? fun b => b.contains a

/-- The table with the device at an address in a new state; names, bases and order stay (`10_state.md` R31). -/
def replaceDevice (a : Addr) (d : Device) : List Binding → List Binding
  | [] => []
  | b :: rest => if b.contains a then { b with device := d } :: rest else b :: replaceDevice a d rest

/-- The address is in some binding: a bus access to it reaches a device (`20_memory.md` R53). -/
def mapped (s : State) (a : Addr) : Bool := (findBinding s.bus a).isSome

/-- The ACIA register a binding's address names (`46_acia.md` R211, `20_memory.md` R53). -/
def Binding.aciaRegister (b : Binding) (a : Addr) : AciaRegister := .ofOffset (a.toNat - b.base.toNat)

/-- `BusRead(a)`, which is `MemRead(a, 1)` (`20_memory.md` R53, R61): the device's read, with the effect it has on
the device and no other. -/
def busRead (a : Addr) (s : State) : Res Byte :=
  match findBinding s.bus a with
  | none => .fault (.unmapped a .read) s
  | some b =>
    match b.device with
    | .ram _ => .ok (s.mem.read a) s
    | .rom _ => .ok (s.mem.read a) s
    | .acia d =>
      let r := d.read s.params (b.aciaRegister a)
      .ok r.1 (s.setBus (replaceDevice a (.acia r.2) s.bus))
    | .spi p => .ok (p.readPort s.params) s
    | .bridge g =>
      let r := g.access s.params (a.toNat - b.base.toNat) none
      .ok r.1 (s.setBus (replaceDevice a (.bridge r.2) s.bus))

/-- `BusWrite(a, v)`, which is `MemWrite(a, 1, v)` (`20_memory.md` R54 to R56). -/
def busWrite (a : Addr) (v : Byte) (s : State) : Res Unit :=
  match findBinding s.bus a with
  | none => .fault (.unmapped a .write) s
  | some b =>
    match b.device with
    | .ram _ => .ok () (s.setMem (s.mem.write a v))
    | .rom _ =>
      match s.params.romWrite with
      | .fault => .fault (.romWrite a v) s
      | .ignore => .ok () s
    | .acia d => .ok () (s.setBus (replaceDevice a (.acia (d.write s.params v (b.aciaRegister a))) s.bus))
    | .spi p => .ok () (s.setBus (replaceDevice a (.spi (p.write s.params v).2) s.bus))
    | .bridge g =>
      .ok () (s.setBus (replaceDevice a (.bridge (g.access s.params (a.toNat - b.base.toNat) (some v)).2) s.bus))

/-- `MemRead(a, 2)`: the low byte first, the high byte from `(a+1) mod 65536` (`20_memory.md` R58). -/
def memRead16 (a : Addr) (s : State) : Res Addr :=
  (busRead a s).bind fun l s => (busRead (a + 1#16) s).bind fun h s => .ok (word h l) s

/-- The bus address of the stack byte under `SP` (`10_state.md` R22). -/
def State.stackAddr (s : State) : Addr := s.params.stackPage + zext s.sp

/-- `push(v)`: write, then decrement (`41_stack.md` R130). -/
def push (v : Byte) (s : State) : Res Unit :=
  (busWrite s.stackAddr v s).bind fun _ s => .ok () (s.setSp (s.sp - 1#8))

/-- `pull()`: increment, then read (`41_stack.md` R131). -/
def pull (s : State) : Res Byte :=
  let s := s.setSp (s.sp + 1#8)
  busRead s.stackAddr s

/-- Push a word: the high byte first, so that the low byte lies at the lower address (`20_memory.md` R58). -/
def pushWord (w : Addr) (s : State) : Res Unit := (push (hi w) s).bind fun _ s => push (lo w) s

/-- Pull a word: the low byte first (`44_control_flow.md` R184, R194). -/
def pullWord (s : State) : Res Addr := (pull s).bind fun l s => (pull s).bind fun h s => .ok (word h l) s

/-- Taking the trap, the only exception of the block (`60_exceptions.md` R297, `44_control_flow.md` R193): the
return address and the status with bits 5 and 4 set are pushed, `I` becomes 1, and control goes to the word at the
vector. `D` stays. -/
def takeTrap (vector ret : Addr) (s : State) : Res Unit :=
  (pushWord ret s).bind fun _ s =>
    (push s.flags.pushed s).bind fun _ s =>
      (memRead16 vector (s.setFlags { s.flags with i := true })).bind fun target s => .ok () (s.setPc target)

/-- Returning from the trap (`60_exceptions.md` R298, `44_control_flow.md` R194): the flags, then the address, are
pulled; nothing is added to the address. -/
def returnFromTrap (s : State) : Res Unit :=
  (pull s).bind fun v s =>
    (pullWord (s.setFlags (Flags.ofByte v))).bind fun target s => .ok () (s.setPc target)

/-- The outcome type of a step. -/
abbrev Outcome := Host.Outcome State Fault Refusal

/-- The context of a fault in the execute phase of an instruction: `PC` is still that of its opcode (`10_state.md`
R23, `60_exceptions.md` R292). -/
def executeContext (i : Instr) (s : State) : Context := ⟨some s.pc, some i.opcode⟩

/-- An execute phase that sets `pc` itself (`30_encoding.md` R80). -/
def runControl (i : Instr) (f : State → Res Unit) (s : State) : Outcome :=
  match f s with
  | .ok _ t => .next t
  | .fault e _ => .fault (e.toFault (executeContext i s))

/-- The address after an instruction at the machine's `PC`: `(PC + length) mod 65536` (`30_encoding.md` R80). -/
def nextPc (i : Instr) (s : State) : Addr := s.pc + BitVec.ofNat 16 i.length

/-- An execute phase that ends by advancing `pc` over the instruction (`30_encoding.md` R80). -/
def runSequential (i : Instr) (f : State → Res Unit) (s : State) : Outcome :=
  runControl i (fun s => (f s).bind fun _ t => .ok () (t.setPc (nextPc i s))) s

end Sys2Proof.Machine
end

