-- ==== Sys2Proof/Machine/Operands.lean ====
section
/-! DEFINITION. The operand rules: effective addresses of every addressing mode and the helpers `loadOperand` and
`storeResult` (`30_encoding.md` R84 to R97). -/

namespace Sys2Proof.Machine

open Sys2Proof

/-- A pointer in page zero: low byte at `z`, high byte at `(z + 1) mod 256` (`30_encoding.md` R94, R95). -/
def zeroPagePointer (z : Byte) (s : State) : Res Addr :=
  (busRead (zext z) s).bind fun l s => (busRead (zext (z + 1#8)) s).bind fun h s => .ok (word h l) s

/-- The effective address `ea` of a memory operand, its pointer reads made (`30_encoding.md` R87 to R92, R94,
R95). The indices are those before the pointer reads, which change no register. -/
def effectiveAddress : MemOperand → State → Res Addr
  | .zeroPage zp, s => .ok (zext zp) s
  | .zeroPageX zp, s => .ok (zext (zp + s.x)) s
  | .zeroPageY zp, s => .ok (zext (zp + s.y)) s
  | .absolute addr, s => .ok addr s
  | .absoluteX addr, s => .ok (addr + zext s.x) s
  | .absoluteY addr, s => .ok (addr + zext s.y) s
  | .indexedIndirect zp, s => zeroPagePointer (zp + s.x) s
  | .indirectIndexed zp, s => (zeroPagePointer zp s).map fun w => w + zext s.y

/-- `loadOperand()` of a load-class instruction (`30_encoding.md` R86, R97). -/
def loadSource : Source → State → Res Byte
  | .immediate v, s => .ok v s
  | .memory m, s => (effectiveAddress m s).bind busRead

/-- A pure store: `ea` is computed, pointer reads included, and the byte is written with no read at `ea`
(`30_encoding.md` R97, `20_memory.md` R63). -/
def storeByte (m : MemOperand) (v : Byte) (s : State) : Res Unit := (effectiveAddress m s).bind fun ea s => busWrite ea v s

/-- A read-modify-write on the accumulator or on memory: one read, the result and the state before the store computed
by `f`, one write at the same `ea` (`30_encoding.md` R97, `20_memory.md` R63). The result is handed on. -/
def modify (t : Target) (f : Byte → State → Byte × State) (s : State) : Res Byte :=
  match t with
  | .accumulator => .ok (f s.a s).1 ((f s.a s).2.setA (f s.a s).1)
  | .memory m =>
    (effectiveAddress m s).bind fun ea s =>
      (busRead ea s).bind fun v s => (busWrite ea (f v s).1 (f v s).2).map fun _ => (f v s).1

/-- The target of the relative mode: `(PC + 2 + sext_16(Op8)) mod 65536` (`30_encoding.md` R96). -/
def relativeTarget (rel : Byte) (s : State) : Addr := s.pc + 2#16 + sext rel

/-- The address of the high byte of an indirect jump's pointer (`30_encoding.md` R93, `92_eei_decisions.md` D8). -/
def indirectHighAddress (ps : Params) (ptr : Addr) : Addr :=
  if ps.jmpIndPageWrap then ptr &&& 0xFF00#16 ||| (ptr + 1#16) &&& 0x00FF#16 else ptr + 1#16

/-- The target of the absolute indirect mode (`30_encoding.md` R93). -/
def indirectTarget (ptr : Addr) (s : State) : Res Addr :=
  (busRead ptr s).bind fun l t => (busRead (indirectHighAddress s.params ptr) t).bind fun h t => .ok (word h l) t

end Sys2Proof.Machine
end

