-- ==== Sys2Proof/Machine/Arithmetic.lean ====
section
/-! DEFINITION. Addition, subtraction, compares, increments and decrements (`42_arithmetic.md`). The shared operation of each mnemonic, then one
meaning for each opcode. -/

namespace Sys2Proof.Machine

open Sys2Proof

/-- `ADC` and `SBC` (R141, R143): the operand is read first, then the model refuses a decimal step if it is told to,
else `A` and the flags are those of `f` (`60_exceptions.md` R294). -/
def runArithmetic (i : Instr) (src : Source) (f : Params → Flags → Byte → Byte → Byte × Flags) (s : State) : Outcome :=
  match loadSource src s with
  | .fault e _ => .fault (e.toFault (executeContext i s))
  | .ok m t =>
    if decimalRefused t.params t.flags then .refused (.decimalArithmetic i.mnemonic)
    else
      .next (((t.setA (f t.params t.flags t.a m).1).setFlags (f t.params t.flags t.a m).2).setPc (nextPc i s))

/-- `CMP` (R145). -/
def cmp (src : Source) (s : State) : Res Unit :=
  (loadSource src s).bind fun m s => .ok () (s.setFlags (s.flags.compare s.a m))

/-- `CPX` (R146). -/
def cpx (src : Source) (s : State) : Res Unit :=
  (loadSource src s).bind fun m s => .ok () (s.setFlags (s.flags.compare s.x m))

/-- `CPY` (R147). -/
def cpy (src : Source) (s : State) : Res Unit :=
  (loadSource src s).bind fun m s => .ok () (s.setFlags (s.flags.compare s.y m))

/-- `INC` (R148): the flags are written after the store. -/
def inc (m : MemOperand) (s : State) : Res Unit :=
  (modify (.memory m) (fun v s => (v + 1#8, s)) s).bind fun r s => .ok () (s.setNZ r)

/-- `DEC` (R151): the flags are written after the store. -/
def dec (m : MemOperand) (s : State) : Res Unit :=
  (modify (.memory m) (fun v s => (v - 1#8, s)) s).bind fun r s => .ok () (s.setNZ r)

/-- `INX` (R149). -/
def inx (s : State) : Res Unit := .ok () ((s.setX (s.x + 1#8)).setNZ (s.x + 1#8))

/-- `INY` (R150). -/
def iny (s : State) : Res Unit := .ok () ((s.setY (s.y + 1#8)).setNZ (s.y + 1#8))

/-- `DEX` (R152). -/
def dex (s : State) : Res Unit := .ok () ((s.setX (s.x - 1#8)).setNZ (s.x - 1#8))

/-- `DEY` (R153). -/
def dey (s : State) : Res Unit := .ok () ((s.setY (s.y - 1#8)).setNZ (s.y - 1#8))

/-- `ADC ($nn,X)`, opcode `61` (rule R141, operand rule R94). -/
def execAdcIzx (zp : Byte) (s : State) : Outcome := runArithmetic (.adcIzx zp) (.memory (.indexedIndirect zp)) adcResult s

/-- `ADC $nn`, opcode `65` (rule R141, operand rule R87). -/
def execAdcZp (zp : Byte) (s : State) : Outcome := runArithmetic (.adcZp zp) (.memory (.zeroPage zp)) adcResult s

/-- `ADC #$nn`, opcode `69` (rule R141, operand rule R86). -/
def execAdcImm (v : Byte) (s : State) : Outcome := runArithmetic (.adcImm v) (.immediate v) adcResult s

/-- `ADC $nnnn`, opcode `6D` (rule R141, operand rule R90). -/
def execAdcAbs (addr : Addr) (s : State) : Outcome := runArithmetic (.adcAbs addr) (.memory (.absolute addr)) adcResult s

/-- `ADC ($nn),Y`, opcode `71` (rule R141, operand rule R95). -/
def execAdcIzy (zp : Byte) (s : State) : Outcome := runArithmetic (.adcIzy zp) (.memory (.indirectIndexed zp)) adcResult s

/-- `ADC $nn,X`, opcode `75` (rule R141, operand rule R88). -/
def execAdcZpx (zp : Byte) (s : State) : Outcome := runArithmetic (.adcZpx zp) (.memory (.zeroPageX zp)) adcResult s

/-- `ADC $nnnn,Y`, opcode `79` (rule R141, operand rule R92). -/
def execAdcAby (addr : Addr) (s : State) : Outcome := runArithmetic (.adcAby addr) (.memory (.absoluteY addr)) adcResult s

/-- `ADC $nnnn,X`, opcode `7D` (rule R141, operand rule R91). -/
def execAdcAbx (addr : Addr) (s : State) : Outcome := runArithmetic (.adcAbx addr) (.memory (.absoluteX addr)) adcResult s

/-- `SBC ($nn,X)`, opcode `E1` (rule R143, operand rule R94). -/
def execSbcIzx (zp : Byte) (s : State) : Outcome := runArithmetic (.sbcIzx zp) (.memory (.indexedIndirect zp)) sbcResult s

/-- `SBC $nn`, opcode `E5` (rule R143, operand rule R87). -/
def execSbcZp (zp : Byte) (s : State) : Outcome := runArithmetic (.sbcZp zp) (.memory (.zeroPage zp)) sbcResult s

/-- `SBC #$nn`, opcode `E9` (rule R143, operand rule R86). -/
def execSbcImm (v : Byte) (s : State) : Outcome := runArithmetic (.sbcImm v) (.immediate v) sbcResult s

/-- `SBC $nnnn`, opcode `ED` (rule R143, operand rule R90). -/
def execSbcAbs (addr : Addr) (s : State) : Outcome := runArithmetic (.sbcAbs addr) (.memory (.absolute addr)) sbcResult s

/-- `SBC ($nn),Y`, opcode `F1` (rule R143, operand rule R95). -/
def execSbcIzy (zp : Byte) (s : State) : Outcome := runArithmetic (.sbcIzy zp) (.memory (.indirectIndexed zp)) sbcResult s

/-- `SBC $nn,X`, opcode `F5` (rule R143, operand rule R88). -/
def execSbcZpx (zp : Byte) (s : State) : Outcome := runArithmetic (.sbcZpx zp) (.memory (.zeroPageX zp)) sbcResult s

/-- `SBC $nnnn,Y`, opcode `F9` (rule R143, operand rule R92). -/
def execSbcAby (addr : Addr) (s : State) : Outcome := runArithmetic (.sbcAby addr) (.memory (.absoluteY addr)) sbcResult s

/-- `SBC $nnnn,X`, opcode `FD` (rule R143, operand rule R91). -/
def execSbcAbx (addr : Addr) (s : State) : Outcome := runArithmetic (.sbcAbx addr) (.memory (.absoluteX addr)) sbcResult s

/-- `CMP ($nn,X)`, opcode `C1` (rule R145, operand rule R94). -/
def execCmpIzx (zp : Byte) (s : State) : Outcome := runSequential (.cmpIzx zp) (cmp (.memory (.indexedIndirect zp))) s

/-- `CMP $nn`, opcode `C5` (rule R145, operand rule R87). -/
def execCmpZp (zp : Byte) (s : State) : Outcome := runSequential (.cmpZp zp) (cmp (.memory (.zeroPage zp))) s

/-- `CMP #$nn`, opcode `C9` (rule R145, operand rule R86). -/
def execCmpImm (v : Byte) (s : State) : Outcome := runSequential (.cmpImm v) (cmp (.immediate v)) s

/-- `CMP $nnnn`, opcode `CD` (rule R145, operand rule R90). -/
def execCmpAbs (addr : Addr) (s : State) : Outcome := runSequential (.cmpAbs addr) (cmp (.memory (.absolute addr))) s

/-- `CMP ($nn),Y`, opcode `D1` (rule R145, operand rule R95). -/
def execCmpIzy (zp : Byte) (s : State) : Outcome := runSequential (.cmpIzy zp) (cmp (.memory (.indirectIndexed zp))) s

/-- `CMP $nn,X`, opcode `D5` (rule R145, operand rule R88). -/
def execCmpZpx (zp : Byte) (s : State) : Outcome := runSequential (.cmpZpx zp) (cmp (.memory (.zeroPageX zp))) s

/-- `CMP $nnnn,Y`, opcode `D9` (rule R145, operand rule R92). -/
def execCmpAby (addr : Addr) (s : State) : Outcome := runSequential (.cmpAby addr) (cmp (.memory (.absoluteY addr))) s

/-- `CMP $nnnn,X`, opcode `DD` (rule R145, operand rule R91). -/
def execCmpAbx (addr : Addr) (s : State) : Outcome := runSequential (.cmpAbx addr) (cmp (.memory (.absoluteX addr))) s

/-- `CPX #$nn`, opcode `E0` (rule R146, operand rule R86). -/
def execCpxImm (v : Byte) (s : State) : Outcome := runSequential (.cpxImm v) (cpx (.immediate v)) s

/-- `CPX $nn`, opcode `E4` (rule R146, operand rule R87). -/
def execCpxZp (zp : Byte) (s : State) : Outcome := runSequential (.cpxZp zp) (cpx (.memory (.zeroPage zp))) s

/-- `CPX $nnnn`, opcode `EC` (rule R146, operand rule R90). -/
def execCpxAbs (addr : Addr) (s : State) : Outcome := runSequential (.cpxAbs addr) (cpx (.memory (.absolute addr))) s

/-- `CPY #$nn`, opcode `C0` (rule R147, operand rule R86). -/
def execCpyImm (v : Byte) (s : State) : Outcome := runSequential (.cpyImm v) (cpy (.immediate v)) s

/-- `CPY $nn`, opcode `C4` (rule R147, operand rule R87). -/
def execCpyZp (zp : Byte) (s : State) : Outcome := runSequential (.cpyZp zp) (cpy (.memory (.zeroPage zp))) s

/-- `CPY $nnnn`, opcode `CC` (rule R147, operand rule R90). -/
def execCpyAbs (addr : Addr) (s : State) : Outcome := runSequential (.cpyAbs addr) (cpy (.memory (.absolute addr))) s

/-- `INC $nn`, opcode `E6` (rule R148, operand rule R87). -/
def execIncZp (zp : Byte) (s : State) : Outcome := runSequential (.incZp zp) (inc (.zeroPage zp)) s

/-- `INC $nnnn`, opcode `EE` (rule R148, operand rule R90). -/
def execIncAbs (addr : Addr) (s : State) : Outcome := runSequential (.incAbs addr) (inc (.absolute addr)) s

/-- `INC $nn,X`, opcode `F6` (rule R148, operand rule R88). -/
def execIncZpx (zp : Byte) (s : State) : Outcome := runSequential (.incZpx zp) (inc (.zeroPageX zp)) s

/-- `INC $nnnn,X`, opcode `FE` (rule R148, operand rule R91). -/
def execIncAbx (addr : Addr) (s : State) : Outcome := runSequential (.incAbx addr) (inc (.absoluteX addr)) s

/-- `INX`, opcode `E8` (rule R149, operand rule R84). -/
def execInx (s : State) : Outcome := runSequential .inx inx s

/-- `INY`, opcode `C8` (rule R150, operand rule R84). -/
def execIny (s : State) : Outcome := runSequential .iny iny s

/-- `DEC $nn`, opcode `C6` (rule R151, operand rule R87). -/
def execDecZp (zp : Byte) (s : State) : Outcome := runSequential (.decZp zp) (dec (.zeroPage zp)) s

/-- `DEC $nnnn`, opcode `CE` (rule R151, operand rule R90). -/
def execDecAbs (addr : Addr) (s : State) : Outcome := runSequential (.decAbs addr) (dec (.absolute addr)) s

/-- `DEC $nn,X`, opcode `D6` (rule R151, operand rule R88). -/
def execDecZpx (zp : Byte) (s : State) : Outcome := runSequential (.decZpx zp) (dec (.zeroPageX zp)) s

/-- `DEC $nnnn,X`, opcode `DE` (rule R151, operand rule R91). -/
def execDecAbx (addr : Addr) (s : State) : Outcome := runSequential (.decAbx addr) (dec (.absoluteX addr)) s

/-- `DEX`, opcode `CA` (rule R152, operand rule R84). -/
def execDex (s : State) : Outcome := runSequential .dex dex s

/-- `DEY`, opcode `88` (rule R153, operand rule R84). -/
def execDey (s : State) : Outcome := runSequential .dey dey s

end Sys2Proof.Machine
end

