-- ==== Sys2Proof/Machine/Control.lean ====
section
/-! DEFINITION. Jumps, calls, returns, branches, the trap `BRK` and `RTI` (`44_control_flow.md`). The shared operation of each mnemonic, then one
meaning for each opcode. -/

namespace Sys2Proof.Machine

open Sys2Proof

/-- `JMP` absolute (R181). -/
def jmp (target : Addr) (s : State) : Res Unit := .ok () (s.setPc target)

/-- `JMP` indirect (R182). -/
def jmpIndirect (ptr : Addr) (s : State) : Res Unit := (indirectTarget ptr s).bind fun target s => .ok () (s.setPc target)

/-- `JSR` (R183): the address of its last byte is pushed, high byte first. -/
def jsr (target : Addr) (s : State) : Res Unit := (pushWord (s.pc + 2#16) s).bind fun _ s => .ok () (s.setPc target)

/-- `RTS` (R184): one more than the pulled address. -/
def rts (s : State) : Res Unit := (pullWord s).bind fun w s => .ok () (s.setPc (w + 1#16))

/-- `branch(cond)` (R180). -/
def branch (cond : Bool) (rel : Byte) (s : State) : Res Unit :=
  .ok () (s.setPc (if cond then relativeTarget rel s else s.pc + 2#16))

/-- `BCC` (R185). -/
def bcc (rel : Byte) (s : State) : Res Unit := branch (!s.flags.c) rel s

/-- `BCS` (R186). -/
def bcs (rel : Byte) (s : State) : Res Unit := branch s.flags.c rel s

/-- `BEQ` (R187). -/
def beq (rel : Byte) (s : State) : Res Unit := branch s.flags.z rel s

/-- `BNE` (R188). -/
def bne (rel : Byte) (s : State) : Res Unit := branch (!s.flags.z) rel s

/-- `BMI` (R189). -/
def bmi (rel : Byte) (s : State) : Res Unit := branch s.flags.n rel s

/-- `BPL` (R190). -/
def bpl (rel : Byte) (s : State) : Res Unit := branch (!s.flags.n) rel s

/-- `BVC` (R191). -/
def bvc (rel : Byte) (s : State) : Res Unit := branch (!s.flags.v) rel s

/-- `BVS` (R192). -/
def bvs (rel : Byte) (s : State) : Res Unit := branch s.flags.v rel s

/-- `BRK` (R193): the trap, with the byte after the opcode skipped by the return address. -/
def brk (s : State) : Res Unit := takeTrap s.params.brkVector (s.pc + 2#16) s

/-- `RTI` (R194). -/
def rti (s : State) : Res Unit := returnFromTrap s

/-- `JMP $nnnn`, opcode `4C` (rule R181, operand rule R90). -/
def execJmpAbs (addr : Addr) (s : State) : Outcome := runControl (.jmpAbs addr) (jmp addr) s

/-- `JMP ($nnnn)`, opcode `6C` (rule R182, operand rule R93). -/
def execJmpInd (ptr : Addr) (s : State) : Outcome := runControl (.jmpInd ptr) (jmpIndirect ptr) s

/-- `JSR $nnnn`, opcode `20` (rule R183, operand rule R90). -/
def execJsr (addr : Addr) (s : State) : Outcome := runControl (.jsr addr) (jsr addr) s

/-- `RTS`, opcode `60` (rule R184, operand rule R84). -/
def execRts (s : State) : Outcome := runControl .rts rts s

/-- `BCC $nnnn (target)`, opcode `90` (rule R185, operand rule R96). -/
def execBcc (rel : Byte) (s : State) : Outcome := runControl (.bcc rel) (bcc rel) s

/-- `BCS $nnnn (target)`, opcode `B0` (rule R186, operand rule R96). -/
def execBcs (rel : Byte) (s : State) : Outcome := runControl (.bcs rel) (bcs rel) s

/-- `BEQ $nnnn (target)`, opcode `F0` (rule R187, operand rule R96). -/
def execBeq (rel : Byte) (s : State) : Outcome := runControl (.beq rel) (beq rel) s

/-- `BNE $nnnn (target)`, opcode `D0` (rule R188, operand rule R96). -/
def execBne (rel : Byte) (s : State) : Outcome := runControl (.bne rel) (bne rel) s

/-- `BMI $nnnn (target)`, opcode `30` (rule R189, operand rule R96). -/
def execBmi (rel : Byte) (s : State) : Outcome := runControl (.bmi rel) (bmi rel) s

/-- `BPL $nnnn (target)`, opcode `10` (rule R190, operand rule R96). -/
def execBpl (rel : Byte) (s : State) : Outcome := runControl (.bpl rel) (bpl rel) s

/-- `BVC $nnnn (target)`, opcode `50` (rule R191, operand rule R96). -/
def execBvc (rel : Byte) (s : State) : Outcome := runControl (.bvc rel) (bvc rel) s

/-- `BVS $nnnn (target)`, opcode `70` (rule R192, operand rule R96). -/
def execBvs (rel : Byte) (s : State) : Outcome := runControl (.bvs rel) (bvs rel) s

/-- `BRK`, opcode `00` (rule R193, operand rule R84). -/
def execBrk (s : State) : Outcome := runControl .brk brk s

/-- `RTI`, opcode `40` (rule R194, operand rule R84). -/
def execRti (s : State) : Outcome := runControl .rti rti s

end Sys2Proof.Machine
end

