-- ==== Sys2Proof/Machine/FlagOps.lean ====
section
/-! DEFINITION. Flag set and clear instructions and `NOP` (`45_flags_nop.md`). The shared operation of each mnemonic, then one
meaning for each opcode. -/

namespace Sys2Proof.Machine

open Sys2Proof

/-- `CLC` (R200). -/
def clc (s : State) : Res Unit := .ok () (s.setFlags { s.flags with c := false })

/-- `SEC` (R201). -/
def sec (s : State) : Res Unit := .ok () (s.setFlags { s.flags with c := true })

/-- `CLI` (R202). -/
def cli (s : State) : Res Unit := .ok () (s.setFlags { s.flags with i := false })

/-- `SEI` (R203). -/
def sei (s : State) : Res Unit := .ok () (s.setFlags { s.flags with i := true })

/-- `CLD` (R204). -/
def cld (s : State) : Res Unit := .ok () (s.setFlags { s.flags with d := false })

/-- `SED` (R205). -/
def sed (s : State) : Res Unit := .ok () (s.setFlags { s.flags with d := true })

/-- `CLV` (R206). -/
def clv (s : State) : Res Unit := .ok () (s.setFlags { s.flags with v := false })

/-- `NOP` (R207): no register, flag or memory change. -/
def nop (s : State) : Res Unit := .ok () s

/-- `CLC`, opcode `18` (rule R200, operand rule R84). -/
def execClc (s : State) : Outcome := runSequential .clc clc s

/-- `SEC`, opcode `38` (rule R201, operand rule R84). -/
def execSec (s : State) : Outcome := runSequential .sec sec s

/-- `CLI`, opcode `58` (rule R202, operand rule R84). -/
def execCli (s : State) : Outcome := runSequential .cli cli s

/-- `SEI`, opcode `78` (rule R203, operand rule R84). -/
def execSei (s : State) : Outcome := runSequential .sei sei s

/-- `CLD`, opcode `D8` (rule R204, operand rule R84). -/
def execCld (s : State) : Outcome := runSequential .cld cld s

/-- `SED`, opcode `F8` (rule R205, operand rule R84). -/
def execSed (s : State) : Outcome := runSequential .sed sed s

/-- `CLV`, opcode `B8` (rule R206, operand rule R84). -/
def execClv (s : State) : Outcome := runSequential .clv clv s

/-- `NOP`, opcode `EA` (rule R207, operand rule R84). -/
def execNop (s : State) : Outcome := runSequential .nop nop s

end Sys2Proof.Machine
end

