-- ==== Sys2Proof/Machine/LoadStore.lean ====
section
/-! DEFINITION. Loads, stores and register transfers (`40_load_store_transfer.md`). The shared operation of each mnemonic, then one
meaning for each opcode. -/

namespace Sys2Proof.Machine

open Sys2Proof

/-- `LDA` (R111). -/
def lda (src : Source) (s : State) : Res Unit := (loadSource src s).bind fun m s => .ok () ((s.setA m).setNZ m)

/-- `LDX` (R112). -/
def ldx (src : Source) (s : State) : Res Unit := (loadSource src s).bind fun m s => .ok () ((s.setX m).setNZ m)

/-- `LDY` (R113). -/
def ldy (src : Source) (s : State) : Res Unit := (loadSource src s).bind fun m s => .ok () ((s.setY m).setNZ m)

/-- `STA` (R114). -/
def sta (m : MemOperand) (s : State) : Res Unit := storeByte m s.a s

/-- `STX` (R115). -/
def stx (m : MemOperand) (s : State) : Res Unit := storeByte m s.x s

/-- `STY` (R116). -/
def sty (m : MemOperand) (s : State) : Res Unit := storeByte m s.y s

/-- `TAX` (R117). -/
def tax (s : State) : Res Unit := .ok () ((s.setX s.a).setNZ s.a)

/-- `TAY` (R118). -/
def tay (s : State) : Res Unit := .ok () ((s.setY s.a).setNZ s.a)

/-- `TXA` (R119). -/
def txa (s : State) : Res Unit := .ok () ((s.setA s.x).setNZ s.x)

/-- `TYA` (R120). -/
def tya (s : State) : Res Unit := .ok () ((s.setA s.y).setNZ s.y)

/-- `TSX` (R121). -/
def tsx (s : State) : Res Unit := .ok () ((s.setX s.sp).setNZ s.sp)

/-- `TXS` (R122): the one transfer that writes no flag. -/
def txs (s : State) : Res Unit := .ok () (s.setSp s.x)

/-- `LDA ($nn,X)`, opcode `A1` (rule R111, operand rule R94). -/
def execLdaIzx (zp : Byte) (s : State) : Outcome := runSequential (.ldaIzx zp) (lda (.memory (.indexedIndirect zp))) s

/-- `LDA $nn`, opcode `A5` (rule R111, operand rule R87). -/
def execLdaZp (zp : Byte) (s : State) : Outcome := runSequential (.ldaZp zp) (lda (.memory (.zeroPage zp))) s

/-- `LDA #$nn`, opcode `A9` (rule R111, operand rule R86). -/
def execLdaImm (v : Byte) (s : State) : Outcome := runSequential (.ldaImm v) (lda (.immediate v)) s

/-- `LDA $nnnn`, opcode `AD` (rule R111, operand rule R90). -/
def execLdaAbs (addr : Addr) (s : State) : Outcome := runSequential (.ldaAbs addr) (lda (.memory (.absolute addr))) s

/-- `LDA ($nn),Y`, opcode `B1` (rule R111, operand rule R95). -/
def execLdaIzy (zp : Byte) (s : State) : Outcome := runSequential (.ldaIzy zp) (lda (.memory (.indirectIndexed zp))) s

/-- `LDA $nn,X`, opcode `B5` (rule R111, operand rule R88). -/
def execLdaZpx (zp : Byte) (s : State) : Outcome := runSequential (.ldaZpx zp) (lda (.memory (.zeroPageX zp))) s

/-- `LDA $nnnn,Y`, opcode `B9` (rule R111, operand rule R92). -/
def execLdaAby (addr : Addr) (s : State) : Outcome := runSequential (.ldaAby addr) (lda (.memory (.absoluteY addr))) s

/-- `LDA $nnnn,X`, opcode `BD` (rule R111, operand rule R91). -/
def execLdaAbx (addr : Addr) (s : State) : Outcome := runSequential (.ldaAbx addr) (lda (.memory (.absoluteX addr))) s

/-- `LDX #$nn`, opcode `A2` (rule R112, operand rule R86). -/
def execLdxImm (v : Byte) (s : State) : Outcome := runSequential (.ldxImm v) (ldx (.immediate v)) s

/-- `LDX $nn`, opcode `A6` (rule R112, operand rule R87). -/
def execLdxZp (zp : Byte) (s : State) : Outcome := runSequential (.ldxZp zp) (ldx (.memory (.zeroPage zp))) s

/-- `LDX $nnnn`, opcode `AE` (rule R112, operand rule R90). -/
def execLdxAbs (addr : Addr) (s : State) : Outcome := runSequential (.ldxAbs addr) (ldx (.memory (.absolute addr))) s

/-- `LDX $nn,Y`, opcode `B6` (rule R112, operand rule R89). -/
def execLdxZpy (zp : Byte) (s : State) : Outcome := runSequential (.ldxZpy zp) (ldx (.memory (.zeroPageY zp))) s

/-- `LDX $nnnn,Y`, opcode `BE` (rule R112, operand rule R92). -/
def execLdxAby (addr : Addr) (s : State) : Outcome := runSequential (.ldxAby addr) (ldx (.memory (.absoluteY addr))) s

/-- `LDY #$nn`, opcode `A0` (rule R113, operand rule R86). -/
def execLdyImm (v : Byte) (s : State) : Outcome := runSequential (.ldyImm v) (ldy (.immediate v)) s

/-- `LDY $nn`, opcode `A4` (rule R113, operand rule R87). -/
def execLdyZp (zp : Byte) (s : State) : Outcome := runSequential (.ldyZp zp) (ldy (.memory (.zeroPage zp))) s

/-- `LDY $nnnn`, opcode `AC` (rule R113, operand rule R90). -/
def execLdyAbs (addr : Addr) (s : State) : Outcome := runSequential (.ldyAbs addr) (ldy (.memory (.absolute addr))) s

/-- `LDY $nn,X`, opcode `B4` (rule R113, operand rule R88). -/
def execLdyZpx (zp : Byte) (s : State) : Outcome := runSequential (.ldyZpx zp) (ldy (.memory (.zeroPageX zp))) s

/-- `LDY $nnnn,X`, opcode `BC` (rule R113, operand rule R91). -/
def execLdyAbx (addr : Addr) (s : State) : Outcome := runSequential (.ldyAbx addr) (ldy (.memory (.absoluteX addr))) s

/-- `STA ($nn,X)`, opcode `81` (rule R114, operand rule R94). -/
def execStaIzx (zp : Byte) (s : State) : Outcome := runSequential (.staIzx zp) (sta (.indexedIndirect zp)) s

/-- `STA $nn`, opcode `85` (rule R114, operand rule R87). -/
def execStaZp (zp : Byte) (s : State) : Outcome := runSequential (.staZp zp) (sta (.zeroPage zp)) s

/-- `STA $nnnn`, opcode `8D` (rule R114, operand rule R90). -/
def execStaAbs (addr : Addr) (s : State) : Outcome := runSequential (.staAbs addr) (sta (.absolute addr)) s

/-- `STA ($nn),Y`, opcode `91` (rule R114, operand rule R95). -/
def execStaIzy (zp : Byte) (s : State) : Outcome := runSequential (.staIzy zp) (sta (.indirectIndexed zp)) s

/-- `STA $nn,X`, opcode `95` (rule R114, operand rule R88). -/
def execStaZpx (zp : Byte) (s : State) : Outcome := runSequential (.staZpx zp) (sta (.zeroPageX zp)) s

/-- `STA $nnnn,Y`, opcode `99` (rule R114, operand rule R92). -/
def execStaAby (addr : Addr) (s : State) : Outcome := runSequential (.staAby addr) (sta (.absoluteY addr)) s

/-- `STA $nnnn,X`, opcode `9D` (rule R114, operand rule R91). -/
def execStaAbx (addr : Addr) (s : State) : Outcome := runSequential (.staAbx addr) (sta (.absoluteX addr)) s

/-- `STX $nn`, opcode `86` (rule R115, operand rule R87). -/
def execStxZp (zp : Byte) (s : State) : Outcome := runSequential (.stxZp zp) (stx (.zeroPage zp)) s

/-- `STX $nnnn`, opcode `8E` (rule R115, operand rule R90). -/
def execStxAbs (addr : Addr) (s : State) : Outcome := runSequential (.stxAbs addr) (stx (.absolute addr)) s

/-- `STX $nn,Y`, opcode `96` (rule R115, operand rule R89). -/
def execStxZpy (zp : Byte) (s : State) : Outcome := runSequential (.stxZpy zp) (stx (.zeroPageY zp)) s

/-- `STY $nn`, opcode `84` (rule R116, operand rule R87). -/
def execStyZp (zp : Byte) (s : State) : Outcome := runSequential (.styZp zp) (sty (.zeroPage zp)) s

/-- `STY $nnnn`, opcode `8C` (rule R116, operand rule R90). -/
def execStyAbs (addr : Addr) (s : State) : Outcome := runSequential (.styAbs addr) (sty (.absolute addr)) s

/-- `STY $nn,X`, opcode `94` (rule R116, operand rule R88). -/
def execStyZpx (zp : Byte) (s : State) : Outcome := runSequential (.styZpx zp) (sty (.zeroPageX zp)) s

/-- `TAX`, opcode `AA` (rule R117, operand rule R84). -/
def execTax (s : State) : Outcome := runSequential .tax tax s

/-- `TAY`, opcode `A8` (rule R118, operand rule R84). -/
def execTay (s : State) : Outcome := runSequential .tay tay s

/-- `TXA`, opcode `8A` (rule R119, operand rule R84). -/
def execTxa (s : State) : Outcome := runSequential .txa txa s

/-- `TYA`, opcode `98` (rule R120, operand rule R84). -/
def execTya (s : State) : Outcome := runSequential .tya tya s

/-- `TSX`, opcode `BA` (rule R121, operand rule R84). -/
def execTsx (s : State) : Outcome := runSequential .tsx tsx s

/-- `TXS`, opcode `9A` (rule R122, operand rule R84). -/
def execTxs (s : State) : Outcome := runSequential .txs txs s

end Sys2Proof.Machine
end

