-- ==== Sys2Proof/Machine/Logic.lean ====
section
/-! DEFINITION. Logic, bit test, shifts and rotates (`43_logic_shift.md`). The shared operation of each mnemonic, then one
meaning for each opcode. -/

namespace Sys2Proof.Machine

open Sys2Proof

/-- `AND` (R161). -/
def andA (src : Source) (s : State) : Res Unit :=
  (loadSource src s).bind fun m s => .ok () ((s.setA (s.a &&& m)).setNZ (s.a &&& m))

/-- `ORA` (R162). -/
def oraA (src : Source) (s : State) : Res Unit :=
  (loadSource src s).bind fun m s => .ok () ((s.setA (s.a ||| m)).setNZ (s.a ||| m))

/-- `EOR` (R163). -/
def eorA (src : Source) (s : State) : Res Unit :=
  (loadSource src s).bind fun m s => .ok () ((s.setA (s.a ^^^ m)).setNZ (s.a ^^^ m))

/-- `BIT` (R164): `A` is unchanged. -/
def bitA (src : Source) (s : State) : Res Unit :=
  (loadSource src s).bind fun m s => .ok () (s.setFlags (s.flags.bitTest s.a m))

/-- The shape of the four shifts: `C` takes the bit shifted out before the store, `N` and `Z` the result after it
(R165 to R168). -/
def shiftWith (t : Target) (f : Bool → Byte → Byte × Bool) (s : State) : Res Unit :=
  (modify t (fun v s => ((f s.flags.c v).1, s.setC (f s.flags.c v).2)) s).bind fun r s => .ok () (s.setNZ r)

/-- `ASL` (R165). -/
def asl (t : Target) (s : State) : Res Unit := shiftWith t (fun _ v => shiftLeft v) s

/-- `LSR` (R166). -/
def lsr (t : Target) (s : State) : Res Unit := shiftWith t (fun _ v => shiftRight v) s

/-- `ROL` (R167). -/
def rol (t : Target) (s : State) : Res Unit := shiftWith t rotateLeft s

/-- `ROR` (R168). -/
def ror (t : Target) (s : State) : Res Unit := shiftWith t rotateRight s

/-- `AND ($nn,X)`, opcode `21` (rule R161, operand rule R94). -/
def execAndIzx (zp : Byte) (s : State) : Outcome := runSequential (.andIzx zp) (andA (.memory (.indexedIndirect zp))) s

/-- `AND $nn`, opcode `25` (rule R161, operand rule R87). -/
def execAndZp (zp : Byte) (s : State) : Outcome := runSequential (.andZp zp) (andA (.memory (.zeroPage zp))) s

/-- `AND #$nn`, opcode `29` (rule R161, operand rule R86). -/
def execAndImm (v : Byte) (s : State) : Outcome := runSequential (.andImm v) (andA (.immediate v)) s

/-- `AND $nnnn`, opcode `2D` (rule R161, operand rule R90). -/
def execAndAbs (addr : Addr) (s : State) : Outcome := runSequential (.andAbs addr) (andA (.memory (.absolute addr))) s

/-- `AND ($nn),Y`, opcode `31` (rule R161, operand rule R95). -/
def execAndIzy (zp : Byte) (s : State) : Outcome := runSequential (.andIzy zp) (andA (.memory (.indirectIndexed zp))) s

/-- `AND $nn,X`, opcode `35` (rule R161, operand rule R88). -/
def execAndZpx (zp : Byte) (s : State) : Outcome := runSequential (.andZpx zp) (andA (.memory (.zeroPageX zp))) s

/-- `AND $nnnn,Y`, opcode `39` (rule R161, operand rule R92). -/
def execAndAby (addr : Addr) (s : State) : Outcome := runSequential (.andAby addr) (andA (.memory (.absoluteY addr))) s

/-- `AND $nnnn,X`, opcode `3D` (rule R161, operand rule R91). -/
def execAndAbx (addr : Addr) (s : State) : Outcome := runSequential (.andAbx addr) (andA (.memory (.absoluteX addr))) s

/-- `ORA ($nn,X)`, opcode `01` (rule R162, operand rule R94). -/
def execOraIzx (zp : Byte) (s : State) : Outcome := runSequential (.oraIzx zp) (oraA (.memory (.indexedIndirect zp))) s

/-- `ORA $nn`, opcode `05` (rule R162, operand rule R87). -/
def execOraZp (zp : Byte) (s : State) : Outcome := runSequential (.oraZp zp) (oraA (.memory (.zeroPage zp))) s

/-- `ORA #$nn`, opcode `09` (rule R162, operand rule R86). -/
def execOraImm (v : Byte) (s : State) : Outcome := runSequential (.oraImm v) (oraA (.immediate v)) s

/-- `ORA $nnnn`, opcode `0D` (rule R162, operand rule R90). -/
def execOraAbs (addr : Addr) (s : State) : Outcome := runSequential (.oraAbs addr) (oraA (.memory (.absolute addr))) s

/-- `ORA ($nn),Y`, opcode `11` (rule R162, operand rule R95). -/
def execOraIzy (zp : Byte) (s : State) : Outcome := runSequential (.oraIzy zp) (oraA (.memory (.indirectIndexed zp))) s

/-- `ORA $nn,X`, opcode `15` (rule R162, operand rule R88). -/
def execOraZpx (zp : Byte) (s : State) : Outcome := runSequential (.oraZpx zp) (oraA (.memory (.zeroPageX zp))) s

/-- `ORA $nnnn,Y`, opcode `19` (rule R162, operand rule R92). -/
def execOraAby (addr : Addr) (s : State) : Outcome := runSequential (.oraAby addr) (oraA (.memory (.absoluteY addr))) s

/-- `ORA $nnnn,X`, opcode `1D` (rule R162, operand rule R91). -/
def execOraAbx (addr : Addr) (s : State) : Outcome := runSequential (.oraAbx addr) (oraA (.memory (.absoluteX addr))) s

/-- `EOR ($nn,X)`, opcode `41` (rule R163, operand rule R94). -/
def execEorIzx (zp : Byte) (s : State) : Outcome := runSequential (.eorIzx zp) (eorA (.memory (.indexedIndirect zp))) s

/-- `EOR $nn`, opcode `45` (rule R163, operand rule R87). -/
def execEorZp (zp : Byte) (s : State) : Outcome := runSequential (.eorZp zp) (eorA (.memory (.zeroPage zp))) s

/-- `EOR #$nn`, opcode `49` (rule R163, operand rule R86). -/
def execEorImm (v : Byte) (s : State) : Outcome := runSequential (.eorImm v) (eorA (.immediate v)) s

/-- `EOR $nnnn`, opcode `4D` (rule R163, operand rule R90). -/
def execEorAbs (addr : Addr) (s : State) : Outcome := runSequential (.eorAbs addr) (eorA (.memory (.absolute addr))) s

/-- `EOR ($nn),Y`, opcode `51` (rule R163, operand rule R95). -/
def execEorIzy (zp : Byte) (s : State) : Outcome := runSequential (.eorIzy zp) (eorA (.memory (.indirectIndexed zp))) s

/-- `EOR $nn,X`, opcode `55` (rule R163, operand rule R88). -/
def execEorZpx (zp : Byte) (s : State) : Outcome := runSequential (.eorZpx zp) (eorA (.memory (.zeroPageX zp))) s

/-- `EOR $nnnn,Y`, opcode `59` (rule R163, operand rule R92). -/
def execEorAby (addr : Addr) (s : State) : Outcome := runSequential (.eorAby addr) (eorA (.memory (.absoluteY addr))) s

/-- `EOR $nnnn,X`, opcode `5D` (rule R163, operand rule R91). -/
def execEorAbx (addr : Addr) (s : State) : Outcome := runSequential (.eorAbx addr) (eorA (.memory (.absoluteX addr))) s

/-- `BIT $nn`, opcode `24` (rule R164, operand rule R87). -/
def execBitZp (zp : Byte) (s : State) : Outcome := runSequential (.bitZp zp) (bitA (.memory (.zeroPage zp))) s

/-- `BIT $nnnn`, opcode `2C` (rule R164, operand rule R90). -/
def execBitAbs (addr : Addr) (s : State) : Outcome := runSequential (.bitAbs addr) (bitA (.memory (.absolute addr))) s

/-- `ASL $nn`, opcode `06` (rule R165, operand rule R87). -/
def execAslZp (zp : Byte) (s : State) : Outcome := runSequential (.aslZp zp) (asl (.memory (.zeroPage zp))) s

/-- `ASL A`, opcode `0A` (rule R165, operand rule R85). -/
def execAslAcc (s : State) : Outcome := runSequential .aslAcc (asl .accumulator) s

/-- `ASL $nnnn`, opcode `0E` (rule R165, operand rule R90). -/
def execAslAbs (addr : Addr) (s : State) : Outcome := runSequential (.aslAbs addr) (asl (.memory (.absolute addr))) s

/-- `ASL $nn,X`, opcode `16` (rule R165, operand rule R88). -/
def execAslZpx (zp : Byte) (s : State) : Outcome := runSequential (.aslZpx zp) (asl (.memory (.zeroPageX zp))) s

/-- `ASL $nnnn,X`, opcode `1E` (rule R165, operand rule R91). -/
def execAslAbx (addr : Addr) (s : State) : Outcome := runSequential (.aslAbx addr) (asl (.memory (.absoluteX addr))) s

/-- `LSR $nn`, opcode `46` (rule R166, operand rule R87). -/
def execLsrZp (zp : Byte) (s : State) : Outcome := runSequential (.lsrZp zp) (lsr (.memory (.zeroPage zp))) s

/-- `LSR A`, opcode `4A` (rule R166, operand rule R85). -/
def execLsrAcc (s : State) : Outcome := runSequential .lsrAcc (lsr .accumulator) s

/-- `LSR $nnnn`, opcode `4E` (rule R166, operand rule R90). -/
def execLsrAbs (addr : Addr) (s : State) : Outcome := runSequential (.lsrAbs addr) (lsr (.memory (.absolute addr))) s

/-- `LSR $nn,X`, opcode `56` (rule R166, operand rule R88). -/
def execLsrZpx (zp : Byte) (s : State) : Outcome := runSequential (.lsrZpx zp) (lsr (.memory (.zeroPageX zp))) s

/-- `LSR $nnnn,X`, opcode `5E` (rule R166, operand rule R91). -/
def execLsrAbx (addr : Addr) (s : State) : Outcome := runSequential (.lsrAbx addr) (lsr (.memory (.absoluteX addr))) s

/-- `ROL $nn`, opcode `26` (rule R167, operand rule R87). -/
def execRolZp (zp : Byte) (s : State) : Outcome := runSequential (.rolZp zp) (rol (.memory (.zeroPage zp))) s

/-- `ROL A`, opcode `2A` (rule R167, operand rule R85). -/
def execRolAcc (s : State) : Outcome := runSequential .rolAcc (rol .accumulator) s

/-- `ROL $nnnn`, opcode `2E` (rule R167, operand rule R90). -/
def execRolAbs (addr : Addr) (s : State) : Outcome := runSequential (.rolAbs addr) (rol (.memory (.absolute addr))) s

/-- `ROL $nn,X`, opcode `36` (rule R167, operand rule R88). -/
def execRolZpx (zp : Byte) (s : State) : Outcome := runSequential (.rolZpx zp) (rol (.memory (.zeroPageX zp))) s

/-- `ROL $nnnn,X`, opcode `3E` (rule R167, operand rule R91). -/
def execRolAbx (addr : Addr) (s : State) : Outcome := runSequential (.rolAbx addr) (rol (.memory (.absoluteX addr))) s

/-- `ROR $nn`, opcode `66` (rule R168, operand rule R87). -/
def execRorZp (zp : Byte) (s : State) : Outcome := runSequential (.rorZp zp) (ror (.memory (.zeroPage zp))) s

/-- `ROR A`, opcode `6A` (rule R168, operand rule R85). -/
def execRorAcc (s : State) : Outcome := runSequential .rorAcc (ror .accumulator) s

/-- `ROR $nnnn`, opcode `6E` (rule R168, operand rule R90). -/
def execRorAbs (addr : Addr) (s : State) : Outcome := runSequential (.rorAbs addr) (ror (.memory (.absolute addr))) s

/-- `ROR $nn,X`, opcode `76` (rule R168, operand rule R88). -/
def execRorZpx (zp : Byte) (s : State) : Outcome := runSequential (.rorZpx zp) (ror (.memory (.zeroPageX zp))) s

/-- `ROR $nnnn,X`, opcode `7E` (rule R168, operand rule R91). -/
def execRorAbx (addr : Addr) (s : State) : Outcome := runSequential (.rorAbx addr) (ror (.memory (.absoluteX addr))) s

end Sys2Proof.Machine
end

