-- ==== Sys2Proof/Machine/Stack.lean ====
section
/-! DEFINITION. The stack instructions (`41_stack.md`). The shared operation of each mnemonic, then one
meaning for each opcode. -/

namespace Sys2Proof.Machine

open Sys2Proof

/-- `PHA` (R132). -/
def pha (s : State) : Res Unit := push s.a s

/-- `PHP` (R133): bits 5 and 4 of the pushed byte are 1. -/
def php (s : State) : Res Unit := push s.flags.pushed s

/-- `PLA` (R134). -/
def pla (s : State) : Res Unit := (pull s).bind fun v s => .ok () ((s.setA v).setNZ v)

/-- `PLP` (R135): bits 5 and 4 of the pulled byte are discarded. -/
def plp (s : State) : Res Unit := (pull s).bind fun v s => .ok () (s.setFlags (Flags.ofByte v))

/-- `PHA`, opcode `48` (rule R132, operand rule R84). -/
def execPha (s : State) : Outcome := runSequential .pha pha s

/-- `PHP`, opcode `08` (rule R133, operand rule R84). -/
def execPhp (s : State) : Outcome := runSequential .php php s

/-- `PLA`, opcode `68` (rule R134, operand rule R84). -/
def execPla (s : State) : Outcome := runSequential .pla pla s

/-- `PLP`, opcode `28` (rule R135, operand rule R84). -/
def execPlp (s : State) : Outcome := runSequential .plp plp s

end Sys2Proof.Machine
end

