-- ==== Sys2Proof/Machine/Debugger.lean ====
section
/-! DEFINITION. DBG, the breakpoint match engine: the comparators, the hook, the command lines with their grammar,
and the effect of each command (`48_breakpoint_engine.md`). -/

namespace Sys2Proof.Machine

open Sys2Proof

/-- A character in lower case, for letters A to Z. -/
def lowerChar (c : Char) : Char := if 65 ≤ c.toNat ∧ c.toNat ≤ 90 then Char.ofNat (c.toNat + 32) else c

/-- A character in upper case, for letters a to z. -/
def upperChar (c : Char) : Char := if 97 ≤ c.toNat ∧ c.toNat ≤ 122 then Char.ofNat (c.toNat - 32) else c

/-- Text in lower case: all command text is case-insensitive (`48_breakpoint_engine.md` R270, R272). -/
def lowerText (t : Text) : Text := t.map lowerChar

/-- Text in upper case (`48_breakpoint_engine.md` R272). -/
def upperText (t : Text) : Text := t.map upperChar

/-- White space between tokens (`48_breakpoint_engine.md` R270). -/
def isSpace (c : Char) : Bool := c == ' ' || c == '\t' || c == '\n' || c == '\r'

/-- The tokens of a line, `cur` being the part of a token already read. -/
def tokensFrom (cur : Text) : Text → List Text
  | [] => if cur = [] then [] else [cur]
  | c :: rest =>
    if isSpace c then
      if cur = [] then tokensFrom [] rest else cur :: tokensFrom [] rest
    else tokensFrom (cur ++ [c]) rest

/-- The tokens of a command line, separated by white space (`48_breakpoint_engine.md` R270). -/
def tokens (line : Text) : List Text := tokensFrom [] line

/-- The value of a lower-case digit in a base up to 16. -/
def digitValue (base : Nat) (c : Char) : Option Nat :=
  let n := c.toNat
  let v := if 48 ≤ n ∧ n ≤ 57 then n - 48 else if 97 ≤ n ∧ n ≤ 102 then n - 87 else 16
  if v < base then some v else none

/-- The number a run of digits stands for, after the digits worth `acc`. -/
def digitsFrom (base acc : Nat) : Text → Option Nat
  | [] => some acc
  | c :: rest =>
    match digitValue base c with
    | some v => digitsFrom base (acc * base + v) rest
    | none => none

/-- The number a non-empty run of digits stands for. -/
def digits (base : Nat) (t : Text) : Option Nat := if t = [] then none else digitsFrom base 0 t

/-- A numeric argument: `$` hex, `0x` hex, else decimal (`48_breakpoint_engine.md` R279). -/
def parseNumber : Text → Option Nat
  | '$' :: rest => digits 16 rest
  | '0' :: 'x' :: rest => digits 16 rest
  | t => digits 10 t

/-- The addresses a label resolves to, each once (`48_breakpoint_engine.md` R279; log entry 18 for the case). -/
def symbolAddresses (ps : Params) (label : Text) : List Addr :=
  ((ps.symbols.filter fun e => lowerText e.label == label).map Symbol.address).eraseDups

/-- A command argument as a number: `.`, a symbol with exactly one address, or a number; a symbol with several
addresses is ambiguous (`48_breakpoint_engine.md` R279). -/
def resolve (ps : Params) (pc : Addr) (t : Text) : Except InputError Nat :=
  if t = ['.'] then .ok pc.toNat
  else
    match symbolAddresses ps t with
    | [a] => .ok a.toNat
    | _ :: _ :: _ => .error .ambiguousSymbol
    | [] =>
      match parseNumber t with
      | some n => .ok n
      | none => .error .badArgument

/-- An argument that must fit `width` bits (`48_breakpoint_engine.md` R271 for `break-address`, R273 for
`break-register`). For the address of a read command R278 states no limit: that a number above 0xFFFF is a bad argument
there is a DESIGN CHOICE (log entry 18, unsafe). -/
def resolveWord (width : Nat) (ps : Params) (pc : Addr) (t : Text) : Except InputError (BitVec width) :=
  match resolve ps pc t with
  | .ok n => if n < 2 ^ width then .ok (BitVec.ofNat width n) else .error .badArgument
  | .error e => .error e

/-- The documented commands and the rejected line, the closed set that `48_breakpoint_engine.md` R270 asks for. -/
inductive Command where
  | breakAddress (a : Addr)
  | breakInstruction (m : Text)
  | breakRegister (r : IndexedRegister) (v : Byte)
  | resume
  | exit
  | help
  | stepOver
  | read (bytes : Nat) (a : Addr)
  | stepOne
  | invalid (e : InputError)
  deriving DecidableEq, Repr

/-- The command words of `48_breakpoint_engine.md` R270 with their aliases, in lower case. -/
inductive CommandWord where
  | breakAddress
  | breakInstruction
  | breakRegister
  | resume
  | exit
  | help
  | stepOver
  | read (bytes : Nat)
  | stepOne
  deriving DecidableEq, Repr

/-- The command table with its aliases (`48_breakpoint_engine.md` R270). -/
def commandTable : List (String × CommandWord) :=
  [ ("break-address", .breakAddress), ("ba", .breakAddress),
    ("break-instruction", .breakInstruction), ("bi", .breakInstruction),
    ("break-register", .breakRegister), ("br", .breakRegister),
    ("continue", .resume), ("c", .resume),
    ("exit", .exit), ("quit", .exit), ("q", .exit),
    ("help", .help), ("h", .help), ("?", .help),
    ("next", .stepOver), ("n", .stepOver),
    ("read", .read 1), ("read16", .read 2), ("read32", .read 4),
    ("step", .stepOne), ("s", .stepOne), ("st", .stepOne) ]

/-- The command a first token selects (`48_breakpoint_engine.md` R270). -/
def commandWord (t : Text) : Option CommandWord :=
  (commandTable.find? fun e => e.1.toList == t).map Prod.snd

/-- The register a token names (`48_breakpoint_engine.md` R273). -/
def registerNamed : Text → Option IndexedRegister
  | ['a'] => some .A
  | ['x'] => some .X
  | ['y'] => some .Y
  | _ => none

/-- A command line in lower case, tokens given, as a command (`48_breakpoint_engine.md` R270 to R281). Tokens after
the arguments are ignored and a missing argument is a bad one (log entry 18). -/
def parseTokens (ps : Params) (pc : Addr) : List Text → Command
  | [] => .invalid .unknownCommand
  | w :: args =>
    match commandWord w, args with
    | none, _ => .invalid .unknownCommand
    | some .resume, _ => .resume
    | some .exit, _ => .exit
    | some .help, _ => .help
    | some .stepOver, _ => .stepOver
    | some .stepOne, _ => .stepOne
    | some .breakAddress, t :: _ =>
      match resolveWord 16 ps pc t with
      | .ok a => .breakAddress a
      | .error e => .invalid e
    | some .breakInstruction, t :: _ => .breakInstruction (upperText t)
    | some .breakRegister, r :: t :: _ =>
      match registerNamed r, resolveWord 8 ps pc t with
      | some r, .ok v => .breakRegister r v
      | some _, .error e => .invalid e
      | none, _ => .invalid .badArgument
    | some (.read n), t :: _ =>
      match resolveWord 16 ps pc t with
      | .ok a => .read n a
      | .error e => .invalid e
    | some _, _ => .invalid .badArgument

/-- A command line as a command. -/
def parseCommand (ps : Params) (pc : Addr) (line : Text) : Command := parseTokens ps pc (tokens (lowerText line))

/-- The name of a mnemonic (`48_breakpoint_engine.md` R261). -/
def Mnemonic.text : Mnemonic → Text
  | .ADC => ['A', 'D', 'C'] | .AND => ['A', 'N', 'D'] | .ASL => ['A', 'S', 'L'] | .BCC => ['B', 'C', 'C']
  | .BCS => ['B', 'C', 'S'] | .BEQ => ['B', 'E', 'Q'] | .BIT => ['B', 'I', 'T'] | .BMI => ['B', 'M', 'I']
  | .BNE => ['B', 'N', 'E'] | .BPL => ['B', 'P', 'L'] | .BRK => ['B', 'R', 'K'] | .BVC => ['B', 'V', 'C']
  | .BVS => ['B', 'V', 'S'] | .CLC => ['C', 'L', 'C'] | .CLD => ['C', 'L', 'D'] | .CLI => ['C', 'L', 'I']
  | .CLV => ['C', 'L', 'V'] | .CMP => ['C', 'M', 'P'] | .CPX => ['C', 'P', 'X'] | .CPY => ['C', 'P', 'Y']
  | .DEC => ['D', 'E', 'C'] | .DEX => ['D', 'E', 'X'] | .DEY => ['D', 'E', 'Y'] | .EOR => ['E', 'O', 'R']
  | .INC => ['I', 'N', 'C'] | .INX => ['I', 'N', 'X'] | .INY => ['I', 'N', 'Y'] | .JMP => ['J', 'M', 'P']
  | .JSR => ['J', 'S', 'R'] | .LDA => ['L', 'D', 'A'] | .LDX => ['L', 'D', 'X'] | .LDY => ['L', 'D', 'Y']
  | .LSR => ['L', 'S', 'R'] | .NOP => ['N', 'O', 'P'] | .ORA => ['O', 'R', 'A'] | .PHA => ['P', 'H', 'A']
  | .PHP => ['P', 'H', 'P'] | .PLA => ['P', 'L', 'A'] | .PLP => ['P', 'L', 'P'] | .ROL => ['R', 'O', 'L']
  | .ROR => ['R', 'O', 'R'] | .RTI => ['R', 'T', 'I'] | .RTS => ['R', 'T', 'S'] | .SBC => ['S', 'B', 'C']
  | .SEC => ['S', 'E', 'C'] | .SED => ['S', 'E', 'D'] | .SEI => ['S', 'E', 'I'] | .STA => ['S', 'T', 'A']
  | .STX => ['S', 'T', 'X'] | .STY => ['S', 'T', 'Y'] | .TAX => ['T', 'A', 'X'] | .TAY => ['T', 'A', 'Y']
  | .TSX => ['T', 'S', 'X'] | .TXA => ['T', 'X', 'A'] | .TXS => ['T', 'X', 'S'] | .TYA => ['T', 'Y', 'A']

/-- The address comparator (`48_breakpoint_engine.md` R263). -/
def addressHit (s : State) : Bool := s.dbg.bpAddr.enabled && s.pc == s.dbg.bpAddr.value

/-- The instruction comparator (`48_breakpoint_engine.md` R261, R263). -/
def instructionHit (i : Instr) (s : State) : Bool :=
  s.dbg.bpInstr.enabled && i.mnemonic.text == s.dbg.bpInstr.mnemonic

/-- A register comparator (`48_breakpoint_engine.md` R263). -/
def RegisterTrigger.hit (t : RegisterTrigger) (v : Byte) : Bool := t.enabled && v == t.value

/-- The notices of one evaluation, in the order address, instruction, A, X, Y (`48_breakpoint_engine.md` R263). -/
def notices (i : Instr) (s : State) : List Output :=
  (if addressHit s then [.addressNotice s.dbg.bpAddr.value] else []) ++
  (if instructionHit i s then [.instructionNotice s.dbg.bpInstr.mnemonic] else []) ++
  (if s.dbg.bpA.hit s.a then [.registerNotice .A s.dbg.bpA.value] else []) ++
  (if s.dbg.bpX.hit s.x then [.registerNotice .X s.dbg.bpX.value] else []) ++
  (if s.dbg.bpY.hit s.y then [.registerNotice .Y s.dbg.bpY.value] else [])

/-- Some enabled trigger matches (`48_breakpoint_engine.md` R263). -/
def triggerHit (i : Instr) (s : State) : Bool :=
  addressHit s || instructionHit i s || s.dbg.bpA.hit s.a || s.dbg.bpX.hit s.x || s.dbg.bpY.hit s.y

/-- The hook's evaluation: the notices are shown, a match clears free-run, and an address trigger that fires while
one-shot is disabled (`48_breakpoint_engine.md` R262, R263). -/
def evaluate (i : Instr) (s : State) : State :=
  { s with
    trace := s.trace ++ notices i s
    dbg := { s.dbg with
      freeRun := s.dbg.freeRun && !triggerHit i s
      bpAddr := { s.dbg.bpAddr with
        enabled := s.dbg.bpAddr.enabled && !(addressHit s && s.dbg.bpAddr.oneShot) } } }

/-- The labels shown at a pause for an absolute-addressing instruction (`48_breakpoint_engine.md` R265). That this means
the mode ABS alone, and neither ABX, ABY nor IND, is a DESIGN CHOICE (log entry 17, safe: it reaches the trace only). -/
def operandLabels (i : Instr) (s : State) : List Text :=
  if i.mode = .ABS then (s.params.symbols.filter fun e => e.address == i.operand.op16).map Symbol.label else []

/-- The display at a pause: the registers and the instruction about to execute (`48_breakpoint_engine.md` R265). -/
def pauseDisplay (i : Instr) (s : State) : Output := .paused s.pc s.a s.x s.y s.sp s.sr i.record (operandLabels i s)

/-- What the hook of an instruction leaves: go on, or pause. -/
inductive HookResult where
  | go (s : State)
  | pause (s : State)
  deriving DecidableEq, Repr

/-- Call the monitors in attachment order (`48_breakpoint_engine.md` R262, `10_state.md` R30). DBG evaluates, and
pauses unless free-run is still set (R264, R265); the monitors after it are called when it releases. -/
def runHooks (i : Instr) : List Monitor → State → HookResult
  | [], s => .go s
  | .observer id :: rest, s => runHooks i rest (s.emit (.observed id i.record))
  | .dbg :: rest, s =>
    let t := evaluate i s
    if t.dbg.freeRun then runHooks i rest t else .pause ((t.emit (pauseDisplay i t)).setRun (.paused i rest false))

/-- A value on the halt channel: the slot is one-shot, the first value wins (`10_state.md` R29, `60_exceptions.md`
R300). -/
def State.placeHalt (s : State) (status : Int) : State :=
  match s.haltStatus with
  | some _ => s
  | none => { s with haltStatus := some status }

/-- The bytes of a debugger read, in ascending order and little-endian: `n` bus reads from `a` (`48_breakpoint_engine.md`
R278). -/
def readLittleEndian : Nat → Addr → State → Res Nat
  | 0, _, s => .ok 0 s
  | n + 1, a, s =>
    (busRead a s).bind fun v s => (readLittleEndian n (a + 1#16) s).bind fun h s => .ok (v.toNat + 256 * h) s

/-- The trigger of a register. -/
def Dbg.setRegisterTrigger (d : Dbg) (r : IndexedRegister) (t : RegisterTrigger) : Dbg :=
  match r with
  | .A => { d with bpA := t }
  | .X => { d with bpX := t }
  | .Y => { d with bpY := t }

/-- What a command leaves: DBG keeps the CPU, releases it, leaves the hook with a halt value placed (`exit`), or a bus
read was fatal. -/
inductive CommandResult where
  | stay (s : State)
  | release (s : State)
  | halt (s : State)
  | fault (f : Fault)
  deriving DecidableEq, Repr

/-- The effect of a command given while the hook of `i` blocks (`48_breakpoint_engine.md` R271 to R281). -/
def runCommand (i : Instr) (c : Command) (s : State) : CommandResult :=
  match c with
  | .breakAddress a => .stay (s.setDbg { s.dbg with bpAddr := ⟨true, a, false⟩ })
  | .breakInstruction m => .stay (s.setDbg { s.dbg with bpInstr := ⟨true, m⟩ })
  | .breakRegister r v => .stay (s.setDbg (s.dbg.setRegisterTrigger r ⟨true, v⟩))
  | .resume => .release (s.setDbg { s.dbg with freeRun := true })
  | .exit => .halt (s.placeHalt 0)
  | .help => .stay (s.emit .help)
  | .stepOver => .release (s.setDbg { s.dbg with bpAddr := ⟨true, nextPc i s, true⟩, freeRun := true })
  | .read n a =>
    match readLittleEndian n a s with
    | .ok v t => .stay (t.emit (.readResult n a v))
    | .fault e _ => .fault (e.toFault (executeContext i s))
  | .stepOne => .release s
  | .invalid e => .stay (s.emit (.inputError e))

/-- The line that a typed line stands for: itself, or for an empty line the last command (`48_breakpoint_engine.md`
R270). -/
def effectiveLine (s : State) (line : Text) : Option Text :=
  if tokens line = [] then s.dbg.lastCommand else some line

/-- One line taken from the host while the hook of `i` blocks: an empty line with no last command does nothing;
every other line is remembered, valid or not, and dispatched (`48_breakpoint_engine.md` R265, R270). -/
def takeLine (i : Instr) (line : Text) (s : State) : CommandResult :=
  match effectiveLine s line with
  | none => .stay s
  | some l => runCommand i (parseCommand s.params s.pc l) (s.setDbg { s.dbg with lastCommand := some l })

/-- The upper-case hexadecimal digit of a nibble. -/
def hexDigit (n : Nat) : Char := if n < 10 then Char.ofNat (48 + n) else Char.ofNat (55 + n)

/-- The name of a register in a notice. -/
def IndexedRegister.text : IndexedRegister → Text
  | .A => ['A']
  | .X => ['X']
  | .Y => ['Y']

/-- The one notice text the source gives, `Breakpoint for X = $FF (255)` (`48_breakpoint_engine.md` R263). -/
def registerNoticeText (r : IndexedRegister) (v : Byte) : Text :=
  ['B', 'r', 'e', 'a', 'k', 'p', 'o', 'i', 'n', 't', ' ', 'f', 'o', 'r', ' '] ++ r.text ++ [' ', '=', ' ', '$',
    hexDigit (v.toNat / 16), hexDigit (v.toNat % 16), ' ', '('] ++ Nat.toDigits 10 v.toNat ++ [')']

end Sys2Proof.Machine
end

