-- ==== Sys2Proof/Machine/Platform.lean ====
section
/-! DEFINITION. What the host and the platform do to the block: `attach`, the CPU's `reset()`, power-on, the halt
signal and the receive event (`20_memory.md` R52, `70_reset_and_hazards.md` R320, R321, `60_exceptions.md` R300,
`46_acia.md` R226). -/

namespace Sys2Proof.Machine

open Sys2Proof

/-- A device of the bus map as the platform describes it, with its power-on contents (`20_memory.md` R57,
`70_reset_and_hazards.md` R321): RAM with the bytes drawn for it from offset 0 up, ROM with its image, an ACIA with
its peripheral, an SPI slave with its `SPI_BINDING` and the consumer's script (`00_scope.md` R7). -/
inductive DeviceSpec where
  | ram (size : BitVec 16) (contents : List Byte)
  | rom (image : List Byte)
  | acia (capability : Capability) (readAnswers : List PeripheralRead) (writeAnswers : List PeripheralWrite)
  | spi (binding : SpiBinding) (responses : List (List Byte))
  deriving DecidableEq, Repr

/-- One entry of `BUS_MAP` (`00_scope.md` R7). -/
structure MapEntry where
  name   : String
  base   : Addr
  device : DeviceSpec
  deriving DecidableEq, Repr

/-- The configuration errors of `60_exceptions.md` R292, each with the value recorded: fatal at startup, before
`reset()`. -/
inductive AttachError where
  /-- `OverlapError`: the two bindings, the one to attach and the one it intersects. -/
  | overlap (binding other : Binding)
  /-- `ConfigurationError` of `attach`: the offending entry, as the binding to attach. -/
  | configuration (binding : Binding)
  /-- `ConfigurationError` of an entry of the map from which no device can be constructed. -/
  | construction (entry : MapEntry)
  deriving DecidableEq, Repr

/-- The interval test of `20_memory.md` R52: the ranges intersect. -/
def Binding.overlaps (b c : Binding) : Bool :=
  decide (b.base.toNat < c.base.toNat + c.size) && decide (c.base.toNat < b.base.toNat + b.size)

/-- `attach(device, name, base)`: the new table, or the error with the table as it was (`20_memory.md` R52; a device of
size 0 is a configuration error by `92_eei_decisions.md` D12, log entry 15). -/
def attach (device : Device) (name : String) (base : Addr) (bus : List Binding) : Except AttachError (List Binding) :=
  let b : Binding := ⟨name, base, device⟩
  if b.size = 0 ∨ 0x10000 < base.toNat + b.size then .error (.configuration b)
  else
    match bus.find? fun c => b.overlaps c with
    | some c => .error (.overlap b c)
    | none => .ok (bus ++ [b])

/-- No two bindings of the table overlap, the invariant of `10_state.md` R31. -/
def busDisjoint : List Binding → Bool
  | [] => true
  | b :: rest => rest.all (fun c => !b.overlaps c) && busDisjoint rest

/-- Every range lies inside the 16-bit address space (`20_memory.md` R52). -/
def busInRange (bus : List Binding) : Bool := bus.all fun b => decide (b.base.toNat + b.size ≤ 0x10000)

/-- The flags `reset()` is given for `N V D Z C`, parameter `RESET_FLAGS` (`00_scope.md` R7). -/
structure ResetFlags where
  n : Bool
  v : Bool
  d : Bool
  z : Bool
  c : Bool
  deriving DecidableEq, Repr

/-- The CPU's `reset()`: two bus reads, low byte first, then `PC`, the flags with `I = 1`, and the run state; no
register, device, DBG or halt slot is written (`70_reset_and_hazards.md` R320). -/
def cpuReset (f : ResetFlags) (s : State) : Res Unit :=
  (memRead16 s.params.resetVector s).bind fun v s =>
    .ok () (((s.setPc v).setFlags ⟨f.n, f.v, f.d, true, f.z, f.c⟩).setRun .running)

/-- The device an entry constructs; an image that no `u16` size can name is a configuration error
(`20_memory.md` R52, R56). -/
def MapEntry.construct (e : MapEntry) : Except AttachError Device :=
  match e.device with
  | .ram n _ => .ok (.ram n)
  | .rom image => if image.length < 65536 then .ok (.rom (BitVec.ofNat 16 image.length)) else .error (.construction e)
  | .acia c rs ws => .ok (.acia (Acia.powerOn ⟨e.base.toNat, c, rs, ws, 0, []⟩))
  | .spi .region rs => .ok (.spi (Spi.powerOn e.base.toNat rs))
  | .spi (.bridge n answers) rs => .ok (.bridge ⟨n, Spi.powerOn e.base.toNat rs, answers, []⟩)

/-- The bytes an entry brings into memory: at most as many as its device holds (`10_state.md` R32). -/
def MapEntry.contents (e : MapEntry) : List Byte :=
  match e.device with
  | .ram n bytes => bytes.take n.toNat
  | .rom image => image
  | .acia _ _ _ => []
  | .spi _ _ => []

/-- Construct and attach every entry of the map in order; the first error ends it (`70_reset_and_hazards.md`
R321). -/
def attachAll : List MapEntry → List Binding → Memory → Except AttachError (List Binding × Memory)
  | [], bus, mem => .ok (bus, mem)
  | e :: rest, bus, mem =>
    match e.construct with
    | .error x => .error x
    | .ok d =>
      match attach d e.name e.base bus with
      | .error x => .error x
      | .ok bus => attachAll rest bus (mem.load e.base e.contents)

/-- All that power-on leaves to the platform and the host: the parameters, the bus map with its contents, the draws
of the registers and flags, the monitors, the pre-queued commands, and the moves between steps
(`70_reset_and_hazards.md` R321, `00_scope.md` R7). -/
structure PowerOn where
  params   : Params
  busMap   : List MapEntry
  a        : Byte
  x        : Byte
  y        : Byte
  sp       : Byte
  flags    : ResetFlags
  monitors : List Monitor
  commands : List Text
  agenda   : List Move
  deriving DecidableEq, Repr

/-- The block constructed and its devices attached, before `reset()` (`70_reset_and_hazards.md` R321 steps 1 to 3).
`PC` and `I` are unspecified until `reset()` (`10_state.md` R34), which overwrites them where its vector reads complete;
where one faults, `PC = 0x0000` and `I = 1` stay in the faulted machine, a DESIGN CHOICE (log entry 29, unsafe). -/
def PowerOn.constructed (p : PowerOn) (bus : List Binding) (mem : Memory) : State where
  pc         := 0x0000#16
  a          := p.a
  x          := p.x
  y          := p.y
  sp         := p.sp
  flags      := ⟨p.flags.n, p.flags.v, p.flags.d, true, p.flags.z, p.flags.c⟩
  run        := .running
  haltStatus := none
  monitors   := p.monitors
  bus        := bus
  mem        := mem
  dbg        := Dbg.powerOn
  commands   := p.commands
  agenda     := p.agenda
  trace      := []
  params     := p.params

/-- Power-on and `reset()`: the machine before its first step. A configuration error gives no machine; a vector read
that finds no binding gives a faulted one (`70_reset_and_hazards.md` R320, R321), whose `PC` and `I` are the choice of log
entry 29. -/
def powerOn (p : PowerOn) : Except AttachError State :=
  match attachAll p.busMap [] [] with
  | .error x => .error x
  | .ok (bus, mem) =>
    match cpuReset p.flags (p.constructed bus mem) with
    | .ok _ s => .ok s
    | .fault e s => .ok (s.setRun (.faulted (e.toFault ⟨none, none⟩)))

/-- The platform of State.reset (log entries 2 to 5, 25, 27): the defaults, map P with nothing in RAM and a blank ROM, every
draw 0. -/
def defaultPlatform : PowerOn where
  params   := Params.default
  busMap   := [ ⟨"ram", 0x0000#16, .ram 0x8000#16 []⟩, ⟨"acia", 0x8000#16, .acia .bidirectional [] []⟩,
                ⟨"spi", 0x8010#16, .spi .region []⟩, ⟨"rom", 0xF000#16, .rom (List.replicate 0x1000 0x00#8)⟩ ]
  a        := 0x00#8
  x        := 0x00#8
  y        := 0x00#8
  sp       := 0x00#8
  flags    := ⟨false, false, false, false, false⟩
  monitors := [.dbg]
  commands := []
  agenda   := []

/-- The host's halt signal: a non-zero status is placed on the channel (`60_exceptions.md` R300); a signal has no
status 0, so a 0 places nothing (log entry 14). -/
def State.signalHalt (s : State) (status : Int) : State := if status = 0 then s else s.placeHalt status

/-- The receive event at the ACIA whose range holds `a`, if `ACIA_RX_PUSH` lets it exist (`46_acia.md` R226). At an
address that is no ACIA's nothing happens (log entry 10). -/
def State.receiveAt (s : State) (a : Addr) (b : Byte) : State :=
  if s.params.aciaRxPush then
    match findBinding s.bus a with
    | some ⟨_, _, .acia d⟩ => s.setBus (replaceDevice a (.acia (d.receive b)) s.bus)
    | _ => s
  else s

end Sys2Proof.Machine
end

