-- ==== Sys2Proof/Machine/Cycle.lean ====
section
/-! DEFINITION. One step of the machine: fetch and decode through the bus, the hook, the execute phase; the waiting
debugger; the agenda of the host and the peripheral; the run loop's terminal states; and the loading of one
instruction (`30_encoding.md` R80, `70_reset_and_hazards.md` R330). -/

namespace Sys2Proof.Machine

open Sys2Proof

/-- What fetch and decode leave: the instruction with the state after its bus reads, or the fault. -/
inductive Fetched where
  | ok (i : Instr) (s : State)
  | fault (f : Fault)
  deriving DecidableEq, Repr

/-- The operand bytes of a form of `n` bytes whose opcode is read, at `PC+1` and `PC+2` mod 65536, in that order
(`30_encoding.md` R80, `20_memory.md` R63); unread bytes are 0. -/
def fetchOperands (n : Nat) (s : State) : Res (Byte × Byte) :=
  match n with
  | 3 =>
    (busRead (s.pc + 1#16) s).bind fun b1 t => (busRead (s.pc + 2#16) t).bind fun b2 u => .ok (b1, b2) u
  | 2 => (busRead (s.pc + 1#16) s).bind fun b1 t => .ok (b1, 0#8) t
  | _ => .ok (0#8, 0#8) s

/-- Fetch and decode at `PC` (`30_encoding.md` R80): the opcode byte, the test for an unknown opcode, then the operand
bytes. Nothing but devices read from changes. -/
def fetch (s : State) : Fetched :=
  match busRead s.pc s with
  | .fault e _ => .fault (e.toFault ⟨some s.pc, none⟩)
  | .ok op t =>
    match opcodeLength op with
    | none => .fault (.unknownOpcode s.pc op)
    | some n =>
      match fetchOperands n t with
      | .fault e _ => .fault (e.toFault ⟨some s.pc, some op⟩)
      | .ok (b1, b2) u =>
        match decodeWith op b1 b2 with
        | some i => .ok i u
        | none => .fault (.unknownOpcode s.pc op)

/-- After the hook of an instruction: execute it, or stay paused (`30_encoding.md` R80). -/
def afterHook (i : Instr) : HookResult → Outcome
  | .go s => exec i s
  | .pause s => .next s

/-- One CPU step (`30_encoding.md` R80). -/
def cpuStep (s : State) : Outcome :=
  match fetch s with
  | .fault f => .fault f
  | .ok i t => afterHook i (runHooks i t.monitors t)

/-- A pause of a later monitor of the step remembers that `exit` was issued (`30_encoding.md` R80). -/
def State.rememberExit (s : State) : State :=
  match s.run with
  | .paused i rest _ => s.setRun (.paused i rest true)
  | _ => s

/-- After the hooks of a step in which `exit` was issued: once every monitor has been called, the machine halts with the
value on the channel and the instruction is not executed (`30_encoding.md` R80, `48_breakpoint_engine.md` R275). -/
def afterExit : HookResult → Outcome
  | .go s => .next (s.setRun (.halted (s.haltStatus.getD 0)))
  | .pause s => .next s.rememberExit

/-- What follows the last monitor of a step. -/
def leaveHooks (exitIssued : Bool) (i : Instr) (r : HookResult) : Outcome :=
  if exitIssued then afterExit r else afterHook i r

/-- While DBG holds the CPU in the hook of `i`: the next line of the host is dispatched; with no line the machine
waits, which is no fault (`48_breakpoint_engine.md` R265; log entry 9). A releasing command and `exit` both leave DBG's
hook, so that the monitors after it are called (`30_encoding.md` R80: the exit test comes after the loop over the
monitors); then `i` executes, or the machine halts. -/
def pausedStep (i : Instr) (rest : List Monitor) (exitIssued : Bool) (s : State) : Outcome :=
  match s.commands with
  | [] => .next s
  | line :: lines =>
    match takeLine i line { s with commands := lines } with
    | .stay t => .next t
    | .halt t => afterExit (runHooks i rest (t.setRun .running))
    | .fault f => .fault f
    | .release t => leaveHooks exitIssued i (runHooks i rest (t.setRun .running))

/-- The CPU's move: the halt test and the start of the step are one action (`10_state.md` R29, `60_exceptions.md`
R300, `70_reset_and_hazards.md` R330). -/
def cpuMove (s : State) : Outcome :=
  match s.run with
  | .running =>
    match s.haltStatus with
    | some status => .next (s.setRun (.halted status))
    | none => cpuStep s
  | .paused i rest exitIssued => pausedStep i rest exitIssued s
  | .halted _ => .next s
  | .faulted f => .fault f

/-- The machine is between two CPU steps: a receive event may happen (`46_acia.md` R226). -/
def betweenSteps (s : State) : Bool :=
  match s.run with
  | .running => true
  | _ => false

/-- The head of the agenda moves (log entry 10): a halt signal at any moment (`60_exceptions.md` R300), a receive
event only between two CPU steps and otherwise after them, the CPU when the head says so or there is none. -/
def agendaMove (s : State) : Outcome :=
  match s.agenda with
  | [] => cpuMove s
  | .cpu :: rest => cpuMove { s with agenda := rest }
  | .halt status :: rest => .next ({ s with agenda := rest }.signalHalt status)
  | .receive a b :: rest => if betweenSteps s then .next ({ s with agenda := rest }.receiveAt a b) else cpuMove s

/-- One step of the whole machine. Halted and faulted are terminal (`10_state.md` R28): a halted machine stays as it
is, a faulted one answers its fault (log entry 11). -/
def machineStep (s : State) : Outcome :=
  match s.run with
  | .halted _ => .next s
  | .faulted f => .fault f
  | .running => agendaMove s
  | .paused _ _ _ => agendaMove s

/-- The run loop's view of an outcome: a fault puts the machine in the terminal state Faulted (`60_exceptions.md`
R291), whose registers and memory no rule reads and R291 leaves to the model. That they are those from BEFORE the faulting
step is a DESIGN CHOICE (log entry 26, unsafe for a claim about them): R291 has the writes before the fault stay. A refused
step has no next state. -/
def settle (s : State) : Outcome → Option State
  | .next t => some t
  | .fault f => some (s.setRun (.faulted f))
  | .refused _ => none

/-- The address is in a RAM or ROM binding, so that fetching it has no effect on a device. -/
def storage (s : State) (a : Addr) : Bool :=
  match findBinding s.bus a with
  | some ⟨_, _, .ram _⟩ => true
  | some ⟨_, _, .rom _⟩ => true
  | _ => false

/-- RAM at every address: two devices of 0x8000 bytes, map F of `95_test_vectors.md`. -/
def flatBus : List Binding := [⟨"low", 0x0000#16, .ram 0x8000#16⟩, ⟨"high", 0x8000#16, .ram 0x8000#16⟩]

/-- A bus whose bytes at `PC`, `PC+1`, `PC+2` can be fetched: the machine's own, or the flat map where it has none
there. -/
def fetchableBus (s : State) : List Binding :=
  if storage s s.pc && storage s (s.pc + 1#16) && storage s (s.pc + 2#16) then s.bus else flatBus

/-- The instruction whose table bits are `w` loaded at `PC`, and the machine made ready to run it in its very next
step (log entry 19): running, no halt pending, no move of the host before it, no monitor to pause it. -/
def placeInstruction (s : State) (nbits w : Nat) : State :=
  { s with
    run := .running
    haltStatus := none
    agenda := []
    monitors := []
    bus := fetchableBus s
    mem := s.mem.load s.pc (tableBytes nbits w) }

end Sys2Proof.Machine
end

