-- ==== Sys2Proof/Safety.lean ====
section
/-! DEFINITION. What claims call a good state and a safe run: the invariant of the reachable states, and a step that
does not stop. -/

namespace Sys2Proof.Machine

open Sys2Proof

/-- The invariant of the machine: the memory in canonical form (log entry 5), the bindings pairwise disjoint and
inside the address space (`10_state.md` R31, `20_memory.md` R52). -/
def State.Inv (s : State) : Prop := s.mem.wf = true ∧ busDisjoint s.bus = true ∧ busInRange s.bus = true

/-- The kinds of device of `20_memory.md` R51, an SPI slave by the way it is reached (`47_spi_slave.md` R254). -/
inductive DeviceKind where
  | ram
  | rom
  | acia
  | spi
  | bridge
  deriving DecidableEq, Repr

/-- The kind of a device. -/
def Device.kind : Device → DeviceKind
  | .ram _ => .ram
  | .rom _ => .rom
  | .acia _ => .acia
  | .spi _ => .spi
  | .bridge _ => .bridge

/-- What a binding fixes at configuration time: name, base, size and kind (`10_state.md` R31). -/
def Binding.layout (b : Binding) : String × Addr × Nat × DeviceKind := (b.name, b.base, b.size, b.device.kind)

/-- The layout of the binding table, in attachment order. -/
def busLayout (bus : List Binding) : List (String × Addr × Nat × DeviceKind) := bus.map Binding.layout

/-- The kind of the device an address reaches, if any (`20_memory.md` R53). -/
def kindAt (s : State) (a : Addr) : Option DeviceKind := (findBinding s.bus a).map fun b => b.device.kind

/-- The address of the stack byte `k` below the pointer, mod 256 (`10_state.md` R22); `-1` is the byte the next pull
reads. -/
def stackSlot (s : State) (k : Byte) : Addr := (s.setSp (s.sp - k)).stackAddr

/-- The addresses a memory operand's pointer reads reach (`30_encoding.md` R94, R95). -/
def pointerAddresses : MemOperand → State → List Addr
  | .indexedIndirect zp, s => [zext (zp + s.x), zext (zp + s.x + 1#8)]
  | .indirectIndexed zp, _ => [zext zp, zext (zp + 1#8)]
  | _, _ => []

/-- The effective address of an operand, where its pointer reads complete. -/
def eaOf (m : MemOperand) (s : State) : List Addr :=
  match effectiveAddress m s with
  | .ok ea _ => [ea]
  | .fault _ _ => []

/-- The addresses a source's read reaches. -/
def sourceAddresses : Source → State → List Addr
  | .immediate _, _ => []
  | .memory m, s => pointerAddresses m s ++ eaOf m s

/-- The device an address reaches, if any (`20_memory.md` R53). -/
def deviceAt (s : State) (a : Addr) : Option Device := (findBinding s.bus a).map fun b => b.device

/-- The address is one of RAM or ROM: reading it is a plain read (`20_memory.md` R55, R56). -/
def plain (s : State) (a : Addr) : Prop := kindAt s a = some .ram ∨ kindAt s a = some .rom

/-- The next step of the machine is a CPU step: it runs, no halt value is placed, the host has no move before it
(`10_state.md` R28, R29). -/
def State.Ready (s : State) : Prop := s.run = .running ∧ s.haltStatus = none ∧ s.agenda = []

/-- The bus addresses the execute phase of an instruction reaches (`20_memory.md` R63). -/
def accessed (i : Instr) (s : State) : List Addr :=
  match i.mnemonic, i.operand with
  | _, .memory m => pointerAddresses m s ++ eaOf m s
  | _, .indirect ptr => [ptr, indirectHighAddress s.params ptr]
  | .PHA, _ | .PHP, _ => [stackSlot s 0#8]
  | .PLA, _ | .PLP, _ => [stackSlot s (-1#8)]
  | .JSR, _ => [stackSlot s 0#8, stackSlot s 1#8]
  | .RTS, _ => [stackSlot s (-1#8), stackSlot s (-2#8)]
  | .BRK, _ => [stackSlot s 0#8, stackSlot s 1#8, stackSlot s 2#8, s.params.brkVector, s.params.brkVector + 1#16]
  | .RTI, _ => [stackSlot s (-1#8), stackSlot s (-2#8), stackSlot s (-3#8)]
  | _, _ => []

/-- The bus addresses an instruction stores to: the effective address of a store or a read-modify-write, the stack
bytes of a push, a call and a trap (`40_load_store_transfer.md` R114 to R116, `42_arithmetic.md` R148, R151,
`43_logic_shift.md` R165 to R168, `41_stack.md` R130, `44_control_flow.md` R183, R193). -/
def stored (i : Instr) (s : State) : List Addr :=
  match i.mnemonic, i.operand with
  | .STA, .memory m | .STX, .memory m | .STY, .memory m => eaOf m s
  | .INC, .memory m | .DEC, .memory m => eaOf m s
  | .ASL, .memory m | .LSR, .memory m | .ROL, .memory m | .ROR, .memory m => eaOf m s
  | .PHA, _ | .PHP, _ => [stackSlot s 0#8]
  | .JSR, _ => [stackSlot s 0#8, stackSlot s 1#8]
  | .BRK, _ => [stackSlot s 0#8, stackSlot s 1#8, stackSlot s 2#8]
  | _, _ => []

/-- The outcome is a next state. -/
def Outcome.goesOn : Outcome → Bool
  | .next _ => true
  | .fault _ => false
  | .refused _ => false

/-- `k` steps from `s` do not stop. -/
def SafeFor : Nat → State → Prop
  | 0, _ => True
  | k + 1, s => ∃ t, step s = .next t ∧ SafeFor k t

end Sys2Proof.Machine
end

