-- ==== Sys2Proof/WellFormed.lean ====
section
/-! DEFINITION. When a decoded record is well formed. The operands of an Instr are 8-bit and 16-bit words by their
types, so every Instr is well formed as it stands; what can be ill formed is the record of `30_encoding.md` R81
that the hook receives. -/

namespace Sys2Proof

open Sys2Proof.Machine

/-- The mnemonic has the mode: the opcode byte stands for exactly this pair in the map of `30_encoding.md` R98. -/
def Machine.Instruction.opcodeFits (r : Instruction) : Bool :=
  match decodeWith r.opcode 0#8 0#8 with
  | some i => i.mnemonic == r.mnemonic && i.mode == r.mode
  | none => false

/-- The length is that of the mode (`30_encoding.md` R83). -/
def Machine.Instruction.lengthFits (r : Instruction) : Bool := r.length == r.mode.length

/-- An operand field that the length leaves unused is 0. `30_encoding.md` R81 gives `Op8` to a 2-byte instruction and `Op16`
to a 3-byte one and no value where they are unused: the 0 is a DESIGN CHOICE (log entry 28, unsafe). -/
def Machine.Instruction.operandsFit (r : Instruction) : Bool :=
  (r.length == 2 || r.op8 == 0#8) && (r.length == 3 || r.op16 == 0#16)

/-- A well-formed decoded record: all three checks hold. -/
def Machine.Instruction.wf (r : Instruction) : Bool := r.opcodeFits && r.lengthFits && r.operandsFit

/-- An instruction is well formed when its record is. -/
def Instr.wf (i : Instr) : Bool := i.record.wf

end Sys2Proof
end

