-- ==== Sys2Proof/Certificates/Slice0/Obligations.lean ====
section
/-! DEFINITION. The statements for the provers. They are written with the spec's own arithmetic (numbers, mod 256,
mod 65536) and not with the functions the meanings are made of, wherever the spec gives a formula. -/

namespace Sys2Proof.Claims

open Sys2Proof Sys2Proof.Machine

/-- The mnemonic has exactly these addressing modes, each with this opcode byte (the Encoding line of a rule). -/
def HasForms (m : Mnemonic) (forms : List (Mode × Byte)) : Prop := ∀ i : Instr, i.mnemonic = m ↔ (i.mode, i.opcode) ∈ forms

/-- The instruction at the machine's `PC` stops with the bus fault `e`, its `PC` and opcode recorded
(`60_exceptions.md` R292). -/
def FaultsWith (i : Instr) (s : State) (e : BusError) : Prop := exec i s = .fault (e.toFault ⟨some s.pc, some i.opcode⟩)

/-- The flags after `setNZ(v)`. -/
def nz (f : Flags) (v : Byte) : Flags := { f with n := decide (128 ≤ v.toNat), z := decide (v.toNat = 0) }

/-- The address after an instruction of `n` bytes at `PC`. -/
def after (s : State) (n : Nat) : Addr := BitVec.ofNat 16 (s.pc.toNat + n)

/-- A load into one register: the operand value is written, `N` and `Z` follow it, nothing else changes but what
the operand read changed; a bus fault of the operand read is the step's. -/
def LoadsInto (m : Mnemonic) (put : State → Byte → State) : Prop :=
  ∀ (i : Instr) (src : Source) (s : State), i.mnemonic = m → i.operand = src.operand →
    (∀ v t, loadSource src s = .ok v t →
      exec i s = .next { put t v with flags := nz s.flags v, pc := after s i.length }) ∧
    (∀ e t, loadSource src s = .fault e t → FaultsWith i s e)

/-- A store of one register: the effective address is computed with its pointer reads, then one write and no read at
it; every flag and register stays. -/
def StoresFrom (m : Mnemonic) (reg : State → Byte) : Prop :=
  ∀ (i : Instr) (o : MemOperand) (s : State), i.mnemonic = m → i.operand = .memory o →
    (∀ ea t u, effectiveAddress o s = .ok ea t → busWrite ea (reg s) t = .ok () u →
      exec i s = .next { u with pc := after s i.length }) ∧
    (∀ e t, effectiveAddress o s = .fault e t → FaultsWith i s e) ∧
    (∀ ea t e u, effectiveAddress o s = .ok ea t → busWrite ea (reg s) t = .fault e u → FaultsWith i s e)

/-- A read-modify-write on memory: one read and one write at one effective address, the result and the flags computed
from the flags before and the byte read. -/
def Modifies (m : Mnemonic) (result : Flags → Byte → Byte) (flags : Flags → Byte → Flags) : Prop :=
  ∀ (i : Instr) (o : MemOperand) (s : State), i.mnemonic = m → i.operand = .memory o →
    (∀ ea t v u w, effectiveAddress o s = .ok ea t → busRead ea t = .ok v u →
      busWrite ea (result s.flags v) u = .ok () w →
      exec i s = .next { w with flags := flags s.flags v, pc := after s i.length }) ∧
    (∀ e t, effectiveAddress o s = .fault e t → FaultsWith i s e) ∧
    (∀ ea t e u, effectiveAddress o s = .ok ea t → busRead ea t = .fault e u → FaultsWith i s e) ∧
    (∀ ea t v u e w, effectiveAddress o s = .ok ea t → busRead ea t = .ok v u →
      busWrite ea (result s.flags v) u = .fault e w → FaultsWith i s e)

/-- A shift or rotate of the accumulator. -/
def ModifiesA (m : Mnemonic) (result : Flags → Byte → Byte) (flags : Flags → Byte → Flags) : Prop :=
  ∀ (i : Instr) (s : State), i.mnemonic = m → i.operand = .accumulator →
    exec i s = .next { s with a := result s.flags s.a, flags := flags s.flags s.a, pc := after s 1 }

/-- A binary operation on the accumulator that writes `N` and `Z`. -/
def CombinesIntoA (m : Mnemonic) (op : Byte → Byte → Byte) : Prop :=
  ∀ (i : Instr) (src : Source) (s : State), i.mnemonic = m → i.operand = src.operand →
    (∀ v t, loadSource src s = .ok v t →
      exec i s = .next { t with a := op s.a v, flags := nz s.flags (op s.a v), pc := after s i.length }) ∧
    (∀ e t, loadSource src s = .fault e t → FaultsWith i s e)

/-- A compare: `C` is the unsigned not-less, `Z` equality, `N` bit 7 of the wrapped difference; the register stays. -/
def Compares (m : Mnemonic) (reg : State → Byte) : Prop :=
  ∀ (i : Instr) (src : Source) (s : State), i.mnemonic = m → i.operand = src.operand →
    (∀ v t, loadSource src s = .ok v t →
      exec i s = .next
        { t with
          flags :=
            { s.flags with
              c := decide (v.toNat ≤ (reg s).toNat)
              z := decide ((reg s).toNat = v.toNat)
              n := decide (128 ≤ (256 + (reg s).toNat - v.toNat) % 256) }
          pc := after s i.length }) ∧
    (∀ e t, loadSource src s = .fault e t → FaultsWith i s e)

/-- The flags of a shift whose result is `r` and whose bit shifted out is `c`. -/
def shifted (f : Flags) (r : Byte) (c : Bool) : Flags := { nz f r with c := c }

/-- The results of the four shifts and rotates as numbers (`43_logic_shift.md` R165 to R168). -/
def aslOf (_ : Flags) (v : Byte) : Byte := BitVec.ofNat 8 (2 * v.toNat)

/-- `LSR`. -/
def lsrOf (_ : Flags) (v : Byte) : Byte := BitVec.ofNat 8 (v.toNat / 2)

/-- `ROL`: the old carry enters bit 0. -/
def rolOf (f : Flags) (v : Byte) : Byte := BitVec.ofNat 8 (2 * v.toNat + f.c.toNat)

/-- `ROR`: the old carry enters bit 7. -/
def rorOf (f : Flags) (v : Byte) : Byte := BitVec.ofNat 8 (v.toNat / 2 + 128 * f.c.toNat)

/-- The bit a left shift moves out. -/
def topBit (v : Byte) : Bool := decide (128 ≤ v.toNat)

/-- The bit a right shift moves out. -/
def lowBit (v : Byte) : Bool := decide (v.toNat % 2 = 1)

/-- A byte whose two nibbles are decimal digits. -/
def isBcd (v : Byte) : Prop := v.toNat % 16 ≤ 9 ∧ v.toNat / 16 ≤ 9

/-- The number two decimal digits stand for. -/
def bcd (v : Byte) : Nat := 10 * (v.toNat / 16) + v.toNat % 16

/-- The signed value of a byte, `s8` of `42_arithmetic.md` R142. -/
def signed (v : Byte) : Int := if v.toNat < 128 then v.toNat else v.toNat - 256

/-- The corrected low-digit sum of decimal addition with carry `c`, `al` of `42_arithmetic.md` R142. -/
def adcLow (c a m : Nat) : Nat :=
  if 10 ≤ a % 16 + m % 16 + c then (a % 16 + m % 16 + c + 6) % 16 + 16 else a % 16 + m % 16 + c

/-- The sum before the correction of the high digit, `s` of `42_arithmetic.md` R142. -/
def adcSum (c a m : Nat) : Nat := 16 * (a / 16) + 16 * (m / 16) + adcLow c a m

/-- The sum after the correction of the high digit (`42_arithmetic.md` R142). -/
def adcFinal (c a m : Nat) : Nat := if 160 ≤ adcSum c a m then adcSum c a m + 96 else adcSum c a m

/-- The corrected low-digit difference of decimal subtraction, `al` of `42_arithmetic.md` R144. -/
def sbcLow (c a m : Int) : Int :=
  if a % 16 - m % 16 + c - 1 < 0 then (a % 16 - m % 16 + c - 1 - 6) % 16 - 16 else a % 16 - m % 16 + c - 1

/-- The difference before the correction of the high digit, `s` of `42_arithmetic.md` R144. -/
def sbcDifference (c a m : Int) : Int := 16 * (a / 16) - 16 * (m / 16) + sbcLow c a m

/-- The difference after the correction of the high digit (`42_arithmetic.md` R144). -/
def sbcFinal (c a m : Int) : Int := if sbcDifference c a m < 0 then sbcDifference c a m - 96 else sbcDifference c a m

/-- The result and the flags of decimal addition of `m`, on every operand (`42_arithmetic.md` R142). -/
structure AddsDecimal (f : Flags) (a m r : Byte) (g : Flags) : Prop where
  result   : r.toNat = adcFinal f.c.toNat a.toNat m.toNat % 256
  carry    : g.c = decide (256 ≤ adcFinal f.c.toNat a.toNat m.toNat)
  negative : g.n = decide (128 ≤ adcSum f.c.toNat a.toNat m.toNat % 256)
  overflow : g.v = decide (signed a - a.toNat % 16 + (signed m - m.toNat % 16) + adcLow f.c.toNat a.toNat m.toNat < -128 ∨
    127 < signed a - a.toNat % 16 + (signed m - m.toNat % 16) + adcLow f.c.toNat a.toNat m.toNat)
  zero     : g.z = decide ((a.toNat + m.toNat + f.c.toNat) % 256 = 0)
  decimal  : g.d = f.d
  disable  : g.i = f.i

/-- The sum is decimal. -/
def decimalOn (s : State) : Prop := s.flags.d = true ∧ s.params.decimalArith = .bcdNmos

/-- The sum is binary (`42_arithmetic.md` R141). -/
def binaryOn (s : State) : Prop := s.flags.d = false ∨ s.params.decimalArith = .binary

/-- The model is to refuse. -/
def refuseOn (s : State) : Prop := s.flags.d = true ∧ s.params.decimalArith = .refuse

/-- The result and the flags of binary addition of `m` with carry (`42_arithmetic.md` R141). -/
structure AddsBinary (s : State) (m r : Byte) (f : Flags) : Prop where
  result   : r.toNat = (s.a.toNat + m.toNat + s.flags.c.toNat) % 256
  carry    : f.c = decide (255 < s.a.toNat + m.toNat + s.flags.c.toNat)
  overflow : f.v = decide (signed s.a + signed m + s.flags.c.toNat < -128 ∨ 127 < signed s.a + signed m + s.flags.c.toNat)
  negative : f.n = decide (128 ≤ r.toNat)
  zero     : f.z = decide (r.toNat = 0)
  decimal  : f.d = s.flags.d
  disable  : f.i = s.flags.i

/-- The binary result and the flags of subtraction of `m` with borrow (`42_arithmetic.md` R143). -/
structure SubtractsBinary (s : State) (m r : Byte) (f : Flags) : Prop where
  result   : r.toNat = (256 + s.a.toNat + s.flags.c.toNat - 1 - m.toNat) % 256
  carry    : f.c = decide (m.toNat + 1 ≤ s.a.toNat + s.flags.c.toNat)
  overflow : f.v = decide (signed s.a - signed m + s.flags.c.toNat - 1 < -128 ∨
    127 < signed s.a - signed m + s.flags.c.toNat - 1)
  negative : f.n = decide (128 ≤ r.toNat)
  zero     : f.z = decide (r.toNat = 0)
  decimal  : f.d = s.flags.d
  disable  : f.i = s.flags.i

/-- The target of a taken branch: `PC + 2` plus the signed offset, mod 65536 (`30_encoding.md` R96). -/
def branchTarget (s : State) (rel : Byte) : Addr := BitVec.ofInt 16 (s.pc.toNat + 2 + signed rel)

/-- A branch of two bytes on a condition over the flags before the step: no flag, no other register, no bus access. -/
def Branches (m : Mnemonic) (op : Byte) (cond : Flags → Bool) : Prop :=
  HasForms m [(.REL, op)] ∧
  ∀ (i : Instr) (rel : Byte) (s : State), i.mnemonic = m → i.operand = .relative rel →
    exec i s = .next { s with pc := if cond s.flags then branchTarget s rel else after s 2 }

/-- A one-byte instruction whose whole effect is a change of the CPU state. -/
def Implied (m : Mnemonic) (op : Byte) (effect : State → State) : Prop :=
  HasForms m [(.IMP, op)] ∧
  ∀ (i : Instr) (s : State), i.mnemonic = m → exec i s = .next { effect s with pc := after s 1 }

/-- The 105 bytes of `30_encoding.md` R99. -/
def undefinedOpcodes : List Nat :=
  [0x02, 0x03, 0x04, 0x07, 0x0B, 0x0C, 0x0F, 0x12, 0x13, 0x14, 0x17, 0x1A, 0x1B, 0x1C, 0x1F, 0x22, 0x23, 0x27, 0x2B] ++
  [0x2F, 0x32, 0x33, 0x34, 0x37, 0x3A, 0x3B, 0x3C, 0x3F, 0x42, 0x43, 0x44, 0x47, 0x4B, 0x4F, 0x52, 0x53, 0x54, 0x57] ++
  [0x5A, 0x5B, 0x5C, 0x5F, 0x62, 0x63, 0x64, 0x67, 0x6B, 0x6F, 0x72, 0x73, 0x74, 0x77, 0x7A, 0x7B, 0x7C, 0x7F, 0x80] ++
  [0x82, 0x83, 0x87, 0x89, 0x8B, 0x8F, 0x92, 0x93, 0x97, 0x9B, 0x9C, 0x9E, 0x9F, 0xA3, 0xA7, 0xAB, 0xAF, 0xB2, 0xB3] ++
  [0xB7, 0xBB, 0xBF, 0xC2, 0xC3, 0xC7, 0xCB, 0xCF, 0xD2, 0xD3, 0xD4, 0xD7, 0xDA, 0xDB, 0xDC, 0xDF, 0xE2, 0xE3, 0xE7] ++
  [0xEB, 0xEF, 0xF2, 0xF3, 0xF4, 0xF7, 0xFA, 0xFB, 0xFC, 0xFF]

/-- The opcode map by mnemonic (`30_encoding.md` R98). -/
def opcodeMap : Mnemonic → List (Mode × Nat)
  | .ADC => [(.IMM, 0x69), (.ZP, 0x65), (.ZPX, 0x75), (.ABS, 0x6D), (.ABX, 0x7D), (.ABY, 0x79), (.IZX, 0x61), (.IZY, 0x71)]
  | .AND => [(.IMM, 0x29), (.ZP, 0x25), (.ZPX, 0x35), (.ABS, 0x2D), (.ABX, 0x3D), (.ABY, 0x39), (.IZX, 0x21), (.IZY, 0x31)]
  | .ASL => [(.ACC, 0x0A), (.ZP, 0x06), (.ZPX, 0x16), (.ABS, 0x0E), (.ABX, 0x1E)]
  | .BCC => [(.REL, 0x90)]
  | .BCS => [(.REL, 0xB0)]
  | .BEQ => [(.REL, 0xF0)]
  | .BIT => [(.ZP, 0x24), (.ABS, 0x2C)]
  | .BMI => [(.REL, 0x30)]
  | .BNE => [(.REL, 0xD0)]
  | .BPL => [(.REL, 0x10)]
  | .BRK => [(.IMP, 0x00)]
  | .BVC => [(.REL, 0x50)]
  | .BVS => [(.REL, 0x70)]
  | .CLC => [(.IMP, 0x18)]
  | .CLD => [(.IMP, 0xD8)]
  | .CLI => [(.IMP, 0x58)]
  | .CLV => [(.IMP, 0xB8)]
  | .CMP => [(.IMM, 0xC9), (.ZP, 0xC5), (.ZPX, 0xD5), (.ABS, 0xCD), (.ABX, 0xDD), (.ABY, 0xD9), (.IZX, 0xC1), (.IZY, 0xD1)]
  | .CPX => [(.IMM, 0xE0), (.ZP, 0xE4), (.ABS, 0xEC)]
  | .CPY => [(.IMM, 0xC0), (.ZP, 0xC4), (.ABS, 0xCC)]
  | .DEC => [(.ZP, 0xC6), (.ZPX, 0xD6), (.ABS, 0xCE), (.ABX, 0xDE)]
  | .DEX => [(.IMP, 0xCA)]
  | .DEY => [(.IMP, 0x88)]
  | .EOR => [(.IMM, 0x49), (.ZP, 0x45), (.ZPX, 0x55), (.ABS, 0x4D), (.ABX, 0x5D), (.ABY, 0x59), (.IZX, 0x41), (.IZY, 0x51)]
  | .INC => [(.ZP, 0xE6), (.ZPX, 0xF6), (.ABS, 0xEE), (.ABX, 0xFE)]
  | .INX => [(.IMP, 0xE8)]
  | .INY => [(.IMP, 0xC8)]
  | .JMP => [(.ABS, 0x4C), (.IND, 0x6C)]
  | .JSR => [(.ABS, 0x20)]
  | .LDA => [(.IMM, 0xA9), (.ZP, 0xA5), (.ZPX, 0xB5), (.ABS, 0xAD), (.ABX, 0xBD), (.ABY, 0xB9), (.IZX, 0xA1), (.IZY, 0xB1)]
  | .LDX => [(.IMM, 0xA2), (.ZP, 0xA6), (.ZPY, 0xB6), (.ABS, 0xAE), (.ABY, 0xBE)]
  | .LDY => [(.IMM, 0xA0), (.ZP, 0xA4), (.ZPX, 0xB4), (.ABS, 0xAC), (.ABX, 0xBC)]
  | .LSR => [(.ACC, 0x4A), (.ZP, 0x46), (.ZPX, 0x56), (.ABS, 0x4E), (.ABX, 0x5E)]
  | .NOP => [(.IMP, 0xEA)]
  | .ORA => [(.IMM, 0x09), (.ZP, 0x05), (.ZPX, 0x15), (.ABS, 0x0D), (.ABX, 0x1D), (.ABY, 0x19), (.IZX, 0x01), (.IZY, 0x11)]
  | .PHA => [(.IMP, 0x48)]
  | .PHP => [(.IMP, 0x08)]
  | .PLA => [(.IMP, 0x68)]
  | .PLP => [(.IMP, 0x28)]
  | .ROL => [(.ACC, 0x2A), (.ZP, 0x26), (.ZPX, 0x36), (.ABS, 0x2E), (.ABX, 0x3E)]
  | .ROR => [(.ACC, 0x6A), (.ZP, 0x66), (.ZPX, 0x76), (.ABS, 0x6E), (.ABX, 0x7E)]
  | .RTI => [(.IMP, 0x40)]
  | .RTS => [(.IMP, 0x60)]
  | .SBC => [(.IMM, 0xE9), (.ZP, 0xE5), (.ZPX, 0xF5), (.ABS, 0xED), (.ABX, 0xFD), (.ABY, 0xF9), (.IZX, 0xE1), (.IZY, 0xF1)]
  | .SEC => [(.IMP, 0x38)]
  | .SED => [(.IMP, 0xF8)]
  | .SEI => [(.IMP, 0x78)]
  | .STA => [(.ZP, 0x85), (.ZPX, 0x95), (.ABS, 0x8D), (.ABX, 0x9D), (.ABY, 0x99), (.IZX, 0x81), (.IZY, 0x91)]
  | .STX => [(.ZP, 0x86), (.ZPY, 0x96), (.ABS, 0x8E)]
  | .STY => [(.ZP, 0x84), (.ZPX, 0x94), (.ABS, 0x8C)]
  | .TAX => [(.IMP, 0xAA)]
  | .TAY => [(.IMP, 0xA8)]
  | .TSX => [(.IMP, 0xBA)]
  | .TXA => [(.IMP, 0x8A)]
  | .TXS => [(.IMP, 0x9A)]
  | .TYA => [(.IMP, 0x98)]

/-- The instructions that write both `N` and `Z` and neither `C` nor `V` (`10_state.md` R26). -/
def writesNZ : List Mnemonic :=
  [.LDA, .LDX, .LDY, .TAX, .TAY, .TXA, .TYA, .TSX, .PLA, .INC, .INX, .INY, .DEC, .DEX, .DEY, .AND, .ORA, .EOR]

/-- The instructions that write `N`, `Z` and `C` (`10_state.md` R26). -/
def writesNZC : List Mnemonic := [.ASL, .LSR, .ROL, .ROR, .CMP, .CPX, .CPY]

/-- The instructions that can write `N` and `Z`. -/
def nzWriters : List Mnemonic := writesNZ ++ writesNZC ++ [.ADC, .SBC, .BIT, .PLP, .RTI]

/-- The instructions that can write `C`. -/
def cWriters : List Mnemonic := writesNZC ++ [.ADC, .SBC, .CLC, .SEC, .PLP, .RTI]

/-- The instructions that can write `V`. -/
def vWriters : List Mnemonic := [.ADC, .SBC, .BIT, .CLV, .PLP, .RTI]

/-- The instructions that can write `D`. -/
def dWriters : List Mnemonic := [.CLD, .SED, .PLP, .RTI]

/-- The instructions that can write `I`. -/
def iWriters : List Mnemonic := [.CLI, .SEI, .BRK, .PLP, .RTI]

/-- The instructions whose rule writes `A` (a shift or rotate only in its accumulator form). -/
def aWriters : List Mnemonic := [.LDA, .TXA, .TYA, .PLA, .ADC, .SBC, .AND, .ORA, .EOR]

/-- The shifts and rotates. -/
def shiftMnemonics : List Mnemonic := [.ASL, .LSR, .ROL, .ROR]

/-- The instructions whose rule writes `X`. -/
def xWriters : List Mnemonic := [.LDX, .TAX, .TSX, .INX, .DEX]

/-- The instructions whose rule writes `Y`. -/
def yWriters : List Mnemonic := [.LDY, .TAY, .INY, .DEY]

/-- The instructions that move `SP` (`10_state.md` R22). -/
def spWriters : List Mnemonic := [.TXS, .PHA, .PHP, .PLA, .PLP, .JSR, .RTS, .BRK, .RTI]

/-- The instructions that set `PC` themselves (`44_control_flow.md`). -/
def controlTransfers : List Mnemonic :=
  [.JMP, .JSR, .RTS, .BCC, .BCS, .BEQ, .BNE, .BMI, .BPL, .BVC, .BVS, .BRK, .RTI]

/-- A rising clock edge with the data level `m`: a write with the clock bit 0, then one with the clock bit 1
(`47_spi_slave.md` R253). -/
def sendBit (ps : Params) (p : Spi) (m : Bool) : Spi :=
  ((p.write ps (bitAt m ps.spiMosiBit)).2.write ps (bitAt m ps.spiMosiBit ||| bitAt true ps.spiSclkBit)).2

/-- Bits 7 down to 8-k of a byte sent, most significant first. -/
def sendBits (ps : Params) (v : Byte) : Nat → Spi → Spi
  | 0, p => p
  | k + 1, p => sendBit ps (sendBits ps v k p) (bit v (7 - k))

/-- The notices of one evaluation of the breakpoints (`48_breakpoint_engine.md` R263), in their order. -/
def expectedNotices (i : Instr) (s : State) : List Output :=
  (if s.dbg.bpAddr.enabled ∧ s.pc = s.dbg.bpAddr.value then [.addressNotice s.dbg.bpAddr.value] else []) ++
  (if s.dbg.bpInstr.enabled ∧ i.mnemonic.text = s.dbg.bpInstr.mnemonic then [.instructionNotice s.dbg.bpInstr.mnemonic]
    else []) ++
  (if s.dbg.bpA.enabled ∧ s.a = s.dbg.bpA.value then [.registerNotice .A s.dbg.bpA.value] else []) ++
  (if s.dbg.bpX.enabled ∧ s.x = s.dbg.bpX.value then [.registerNotice .X s.dbg.bpX.value] else []) ++
  (if s.dbg.bpY.enabled ∧ s.y = s.dbg.bpY.value then [.registerNotice .Y s.dbg.bpY.value] else [])

/-- The CPU registers and the memory of the two states agree. -/
def SameMachine (s t : State) : Prop :=
  t.pc = s.pc ∧ t.a = s.a ∧ t.x = s.x ∧ t.y = s.y ∧ t.sp = s.sp ∧ t.flags = s.flags ∧ t.mem = s.mem

/-- `t` is `s` with the device of the binding `b`, which `a` finds, in the state `d`: the table has the new device in the
place of the old, every address outside the range of `b` finds the binding it found, and nothing else is changed. -/
def ReplacesDevice (s t : State) (a : Addr) (b : Binding) (d : Device) : Prop :=
  t = { s with bus := replaceDevice a d s.bus } ∧ findBinding t.bus a = some { b with device := d } ∧
  ∀ c : Addr, b.contains c = false → findBinding t.bus c = findBinding s.bus c

/-- The offset of an ACIA register: 0 data, 1 status, 2 command, 3 control (`46_acia.md` R211). -/
def aciaOffset : AciaRegister → Nat
  | .data => 0
  | .status => 1
  | .command => 2
  | .control => 3

/-- What follows DBG's hook of `i` once a line has ended it in the state `t`, `ex` saying whether `exit` was issued in this
step: the monitors still to be called are called; after them the instruction executes, or after an `exit` the machine
halts; a monitor that pauses keeps whether `exit` was issued (`30_encoding.md` R80). -/
def AfterDbg (ex : Bool) (i : Instr) (rest : List Monitor) (t : State) (o : Outcome) : Prop :=
  (∀ u, runHooks i rest { t with run := .running } = .go u →
    o = if ex then .next { u with run := .halted (u.haltStatus.getD 0) } else exec i u) ∧
  (∀ u, runHooks i rest { t with run := .running } = .pause u →
    ∃ rest', u.run = .paused i rest' false ∧ o = .next { u with run := .paused i rest' ex })

/-- The text is one of these words. -/
def isOneOf (w : Text) (words : List String) : Prop := w ∈ words.map String.toList

/-- The words and aliases of `48_breakpoint_engine.md` R270. -/
def commandNames : List String :=
  ["break-address", "ba", "break-instruction", "bi", "break-register", "br", "continue", "c", "exit", "quit", "q", "help"] ++
  ["h", "?", "next", "n", "read", "read16", "read32", "step", "s", "st"]

/-- The command `c` takes the argument `t` as a number of `k` bits: one that does not fit is a bad argument, an error of
the argument is the command's. -/
def TakesNumber (k : Nat) (ps : Params) (pc : Addr) (t : Text) (c : Command) (made : BitVec k → Command) : Prop :=
  (∀ n, resolve ps pc t = .ok n → n < 2 ^ k → c = made (BitVec.ofNat k n)) ∧
  (∀ n, resolve ps pc t = .ok n → 2 ^ k ≤ n → c = .invalid .badArgument) ∧
  (∀ e, resolve ps pc t = .error e → c = .invalid e)

/-- The characters that separate tokens. -/
def separators : List Char := [' ', '\t', '\n', '\r']

/-- A token: not empty, no separator in it. -/
def IsToken (w : Text) : Prop := w ≠ [] ∧ ∀ c ∈ w, c ∉ separators

/-- Two characters that differ at most in case. -/
def SameLetter (c d : Char) : Prop :=
  c = d ∨ ∃ k < 26,
    (c = Char.ofNat (65 + k) ∧ d = Char.ofNat (97 + k)) ∨ (c = Char.ofNat (97 + k) ∧ d = Char.ofNat (65 + k))

/-- The character is the digit worth `v` in this base, letters in lower case. -/
def DigitWorth (base : Nat) (c : Char) (v : Nat) : Prop :=
  v < base ∧ ((v < 10 ∧ c.toNat = 48 + v) ∨ (10 ≤ v ∧ c.toNat = 87 + v))

/-- The digits, most significant first, stand for the number. -/
def Denotes (base : Nat) (t : Text) (n : Nat) : Prop :=
  t ≠ [] ∧ ∃ vs : List Nat, List.Forall₂ (DigitWorth base) t vs ∧ n = vs.foldl (fun acc v => acc * base + v) 0

/-- The numeric arguments of `48_breakpoint_engine.md` R279: `$` or `0x` and hexadecimal digits, or decimal digits. -/
def NumberIs (t : Text) (n : Nat) : Prop :=
  (∃ ds, t = '$' :: ds ∧ Denotes 16 ds n) ∨ (∃ ds, t = '0' :: 'x' :: ds ∧ Denotes 16 ds n) ∨ Denotes 10 t n

end Sys2Proof.Claims

open Sys2Proof Sys2Proof.Machine Sys2Proof.Claims

/-- Every instruction is well formed, and decoding its bytes gives it back with every operand, whatever follows
(`30_encoding.md` R82, R83, R98). That a well-formed record has 0 in an operand field its
length leaves unused is the choice of log entry 28. -/
def Obligations.DecodeOfEncode : Prop :=
  ∀ (i : Instr) (rest : List Byte), i.wf = true ∧ decode (encode i ++ rest) = some (i, rest)

/-- A byte sequence that decodes is the encoding of what it decodes to, followed by the bytes left over: no two byte
sequences of one length stand for one instruction (`30_encoding.md` R82, R98). -/
def Obligations.EncodeOfDecode : Prop :=
  ∀ (bytes : List Byte) (i : Instr) (rest : List Byte), decode bytes = some (i, rest) → encode i ++ rest = bytes

/-- The opcode map of `30_encoding.md` R98: a defined byte decodes to an instruction of the mnemonic and mode the map
gives it, and every entry of the map is decoded so, whatever bytes follow; the map has 151 entries. -/
def Obligations.OpcodeMap : Prop :=
  (∀ (op b1 b2 : Byte) (i : Instr), decodeWith op b1 b2 = some i →
    i.opcode = op ∧ (i.mode, op.toNat) ∈ opcodeMap i.mnemonic) ∧
  (∀ (m : Mnemonic) (mode : Mode) (n : Nat), (mode, n) ∈ opcodeMap m → ∀ b1 b2 : Byte,
    ∃ i, decodeWith (BitVec.ofNat 8 n) b1 b2 = some i ∧ i.mnemonic = m ∧ i.mode = mode) ∧
  ((List.range 256).filter fun n => (opcodeLength (BitVec.ofNat 8 n)).isSome).length = 151

/-- The three formats of `30_encoding.md` R82 with the modes of each: the bytes of an instruction in ascending
addresses, an operand word low byte first. -/
def Obligations.InstructionFormats : Prop :=
  ∀ i : Instr,
    (i.mode ∈ [Mode.IMP, .ACC] → encode i = [i.opcode]) ∧
    (i.mode ∈ [Mode.IMM, .ZP, .ZPX, .ZPY, .IZX, .IZY, .REL] → encode i = [i.opcode, i.record.op8]) ∧
    (i.mode ∈ [Mode.ABS, .ABX, .ABY, .IND] →
      encode i = [i.opcode, BitVec.ofNat 8 (i.record.op16.toNat % 256), BitVec.ofNat 8 (i.record.op16.toNat / 256)])

/-- Words written out from the encodings of `30_encoding.md` R98, `40_load_store_transfer.md` R112, R114, R115,
`42_arithmetic.md` R151, `43_logic_shift.md` R167, `44_control_flow.md` R182, R183, R192, `41_stack.md` R133. -/
def Obligations.SpecWordsDecode : Prop :=
  decode [0xA2#8, 0xFF#8] = some (.ldxImm 0xFF#8, []) ∧
  decode [0x8D#8, 0x00#8, 0x80#8] = some (.staAbs 0x8000#16, []) ∧
  decode [0x96#8, 0x10#8] = some (.stxZpy 0x10#8, []) ∧
  decode [0xCE#8, 0x00#8, 0x02#8] = some (.decAbs 0x0200#16, []) ∧
  decode [0x2A#8] = some (.rolAcc, []) ∧
  decode [0x6C#8, 0x00#8, 0x02#8] = some (.jmpInd 0x0200#16, []) ∧
  decode [0x20#8, 0x34#8, 0x12#8] = some (.jsr 0x1234#16, []) ∧
  decode [0x70#8, 0xFC#8] = some (.bvs 0xFC#8, []) ∧
  decode [0x08#8] = some (.php, []) ∧
  decode [0x89#8, 0x00#8] = none

/-- `30_encoding.md` R99: exactly the 105 listed bytes decode to nothing, and a step that fetches one stops with its
`PC` and the byte, before any operand read. -/
def Obligations.UndefinedOpcodesFault : Prop :=
  undefinedOpcodes.length = 105 ∧
  (∀ op : Byte, op.toNat ∈ undefinedOpcodes ↔ ∀ b1 b2, decodeWith op b1 b2 = none) ∧
  (∀ (s t : State) (op : Byte), s.Ready → busRead s.pc s = .ok op t → op.toNat ∈ undefinedOpcodes →
    step s = .fault (.unknownOpcode s.pc op))

/-- A step runs the decoded instruction: with no monitor attached and the instruction's bytes in RAM or ROM at `PC`,
step is exec of what they decode to, at the unchanged state (`30_encoding.md` R80). -/
def Obligations.StepRunsDecoded : Prop :=
  ∀ (s : State) (i : Instr) (rest : List Byte), s.Ready → s.monitors = [] →
    decode [s.mem.read s.pc, s.mem.read (s.pc + 1#16), s.mem.read (s.pc + 2#16)] = some (i, rest) →
    (∀ k, k < i.length → plain s (s.pc + BitVec.ofNat 16 k)) →
    step s = exec i s

/-- Fetch and decode read the opcode, then the operand bytes in ascending order, through the bus, and no other byte;
then the monitors are called; the instruction runs, or DBG holds it (`30_encoding.md` R80, `20_memory.md` R63). The
first of those reads that faults ends the step, with the context there is (`60_exceptions.md` R294 steps 2 and 4). -/
def Obligations.StepFetchesThenHooks : Prop :=
  (∀ (s t0 t1 t2 : State) (op b1 b2 : Byte) (i : Instr), s.Ready → busRead s.pc s = .ok op t0 →
      ((opcodeLength op = some 1 ∧ decodeWith op 0#8 0#8 = some i ∧ t2 = t0) ∨
       (opcodeLength op = some 2 ∧ busRead (after s 1) t0 = .ok b1 t2 ∧ decodeWith op b1 0#8 = some i) ∨
       (opcodeLength op = some 3 ∧ busRead (after s 1) t0 = .ok b1 t1 ∧ busRead (after s 2) t1 = .ok b2 t2 ∧
         decodeWith op b1 b2 = some i)) →
      (∀ u, runHooks i s.monitors t2 = .go u → step s = exec i u) ∧
      (∀ u, runHooks i s.monitors t2 = .pause u → step s = .next u)) ∧
  (∀ s : State, s.Ready →
      (∀ e t, busRead s.pc s = .fault e t → step s = .fault (e.toFault ⟨some s.pc, none⟩)) ∧
      (∀ op t0 e t, busRead s.pc s = .ok op t0 → (opcodeLength op = some 2 ∨ opcodeLength op = some 3) →
        busRead (after s 1) t0 = .fault e t → step s = .fault (e.toFault ⟨some s.pc, some op⟩)) ∧
      (∀ op t0 b1 t1 e t, busRead s.pc s = .ok op t0 → opcodeLength op = some 3 → busRead (after s 1) t0 = .ok b1 t1 →
        busRead (after s 2) t1 = .fault e t → step s = .fault (e.toFault ⟨some s.pc, some op⟩)))

/-- A placed word runs in the very next step (log entry 19). -/
def Obligations.PlacedWordRuns : Prop :=
  ∀ (s : State) (nbits w : Nat) (i : Instr), decodeTableWord nbits w = some i →
    step (s.withFetchWord nbits w) = exec i (s.withFetchWord nbits w)

/-- The invariant every step keeps: memory in canonical form (the model's representation, log entry 5), bindings disjoint
and inside the address space (`10_state.md` R31, `20_memory.md` R52). -/
def Obligations.StepKeepsInvariant : Prop := ∀ s t : State, s.Inv → step s = .next t → t.Inv

/-- The invariant holds at reset, with the bus map of log entry 4. -/
def Obligations.ResetInvariant : Prop := State.reset.Inv

/-- No step changes the configuration: the parameters, the monitor list (`10_state.md` R30), the names, bases, sizes
and kinds of the bindings in their order (`10_state.md` R31), nor a ROM byte, whatever `ROM_WRITE` is
(`20_memory.md` R56). -/
def Obligations.StepKeepsConfiguration : Prop :=
  ∀ s t : State, step s = .next t →
    t.params = s.params ∧ t.monitors = s.monitors ∧ busLayout t.bus = busLayout s.bus ∧
    ∀ a : Addr, kindAt s a = some .rom → t.mem.read a = s.mem.read a

/-- No instruction changes the host's side of the machine: run state, halt slot, monitors, debugger, command lines,
agenda, trace, parameters (`60_exceptions.md` R304: a program observes nothing of DBG and writes nothing of it). -/
def Obligations.ExecLeavesHostSide : Prop :=
  ∀ (i : Instr) (s t : State), exec i s = .next t →
    t.run = s.run ∧ t.haltStatus = s.haltStatus ∧ t.monitors = s.monitors ∧ t.dbg = s.dbg ∧ t.commands = s.commands ∧
    t.agenda = s.agenda ∧ t.trace = s.trace ∧ t.params = s.params ∧ busLayout t.bus = busLayout s.bus

/-- Which instructions write which flags, the table of `10_state.md` R26, for every instruction and every state. -/
def Obligations.FlagFrame : Prop :=
  ∀ (i : Instr) (s t : State), exec i s = .next t →
    (i.mnemonic ∉ nzWriters → t.flags.n = s.flags.n ∧ t.flags.z = s.flags.z) ∧
    (i.mnemonic ∉ cWriters → t.flags.c = s.flags.c) ∧
    (i.mnemonic ∉ vWriters → t.flags.v = s.flags.v) ∧
    (i.mnemonic ∉ dWriters → t.flags.d = s.flags.d) ∧
    (i.mnemonic ∉ iWriters → t.flags.i = s.flags.i)

/-- Which instructions write which registers, for every instruction and every state; `PC` may change
(`10_state.md` R20 to R22 and the instruction rules). -/
def Obligations.RegisterFrame : Prop :=
  ∀ (i : Instr) (s t : State), exec i s = .next t →
    (i.mnemonic ∉ aWriters → ¬(i.mnemonic ∈ shiftMnemonics ∧ i.mode = .ACC) → t.a = s.a) ∧
    (i.mnemonic ∉ xWriters → t.x = s.x) ∧
    (i.mnemonic ∉ yWriters → t.y = s.y) ∧
    (i.mnemonic ∉ spWriters → t.sp = s.sp)

/-- Every byte of memory is unchanged but those the instruction stores to: the effective address of a store or a
read-modify-write, the stack bytes of a push, a call and a trap; an instruction that stores nothing changes no byte. -/
def Obligations.MemoryFrame : Prop :=
  ∀ (i : Instr) (s t : State), exec i s = .next t → ∀ a : Addr, a ∉ stored i s → t.mem.read a = s.mem.read a

/-- The effects of accesses are contained in the devices accessed (`20_memory.md` R53), and an instruction accesses no
address but those of its rule (`20_memory.md` R63): a device whose range holds none of them is unchanged. -/
def Obligations.DeviceFrame : Prop :=
  ∀ (i : Instr) (s t : State), exec i s = .next t → ∀ (c : Addr) (b : Binding), findBinding s.bus c = some b →
    (∀ a ∈ accessed i s, b.contains a = false) → findBinding t.bus c = some b

/-- Every instruction completes, in every state in which the addresses its rule accesses are mapped, those it stores to
are not ROM under `ROM_WRITE = fault`, and the model is not told to refuse its decimal sum; one that is no control
transfer then leaves `PC` on the next instruction (`30_encoding.md` R80). -/
def Obligations.EveryInstructionCompletes : Prop :=
  ∀ (i : Instr) (s : State), (∀ a ∈ accessed i s, mapped s a = true) →
    (∀ a ∈ stored i s, kindAt s a = some .rom → s.params.romWrite = .ignore) →
    (i.mnemonic ∈ [Mnemonic.ADC, .SBC] → ¬refuseOn s) →
    ∃ t, exec i s = .next t ∧ (i.mnemonic ∉ controlTransfers → t.pc = after s i.length)

/-- `LDA`, `LDX`, `LDY` (`40_load_store_transfer.md` R111 to R113). -/
def Obligations.LoadRules : Prop :=
  HasForms .LDA [(.IMM, 0xA9#8), (.ZP, 0xA5#8), (.ZPX, 0xB5#8), (.ABS, 0xAD#8), (.ABX, 0xBD#8), (.ABY, 0xB9#8),
    (.IZX, 0xA1#8), (.IZY, 0xB1#8)] ∧
  LoadsInto .LDA (fun t v => { t with a := v }) ∧
  HasForms .LDX [(.IMM, 0xA2#8), (.ZP, 0xA6#8), (.ZPY, 0xB6#8), (.ABS, 0xAE#8), (.ABY, 0xBE#8)] ∧
  LoadsInto .LDX (fun t v => { t with x := v }) ∧
  HasForms .LDY [(.IMM, 0xA0#8), (.ZP, 0xA4#8), (.ZPX, 0xB4#8), (.ABS, 0xAC#8), (.ABX, 0xBC#8)] ∧
  LoadsInto .LDY (fun t v => { t with y := v })

/-- `STA`, `STX`, `STY` (`40_load_store_transfer.md` R114 to R116). -/
def Obligations.StoreRules : Prop :=
  HasForms .STA [(.ZP, 0x85#8), (.ZPX, 0x95#8), (.ABS, 0x8D#8), (.ABX, 0x9D#8), (.ABY, 0x99#8), (.IZX, 0x81#8),
    (.IZY, 0x91#8)] ∧
  StoresFrom .STA State.a ∧
  HasForms .STX [(.ZP, 0x86#8), (.ZPY, 0x96#8), (.ABS, 0x8E#8)] ∧
  StoresFrom .STX State.x ∧
  HasForms .STY [(.ZP, 0x84#8), (.ZPX, 0x94#8), (.ABS, 0x8C#8)] ∧
  StoresFrom .STY State.y

/-- The six register transfers (`40_load_store_transfer.md` R117 to R122); `TXS` writes no flag. -/
def Obligations.TransferRules : Prop :=
  Implied .TAX 0xAA#8 (fun s => { s with x := s.a, flags := nz s.flags s.a }) ∧
  Implied .TAY 0xA8#8 (fun s => { s with y := s.a, flags := nz s.flags s.a }) ∧
  Implied .TXA 0x8A#8 (fun s => { s with a := s.x, flags := nz s.flags s.x }) ∧
  Implied .TYA 0x98#8 (fun s => { s with a := s.y, flags := nz s.flags s.y }) ∧
  Implied .TSX 0xBA#8 (fun s => { s with x := s.sp, flags := nz s.flags s.sp }) ∧
  Implied .TXS 0x9A#8 (fun s => { s with sp := s.x })

/-- `push` and `pull` (`41_stack.md` R130, R131): write then decrement, increment then read, at `STACK_PAGE + SP`, the
pointer wrapping mod 256; a push whose write faults does not move the pointer. That the sum `STACK_PAGE + SP` is taken mod
65536 for every `STACK_PAGE` is log entry 20 (DEDUCED, from `92_eei_decisions.md` D29). -/
def Obligations.PushAndPull : Prop :=
  (∀ (v : Byte) (s t : State), busWrite (BitVec.ofNat 16 (s.params.stackPage.toNat + s.sp.toNat)) v s = .ok () t →
    push v s = .ok () { t with sp := BitVec.ofNat 8 (s.sp.toNat + 255) }) ∧
  (∀ (v : Byte) (s t : State) (e : BusError),
    busWrite (BitVec.ofNat 16 (s.params.stackPage.toNat + s.sp.toNat)) v s = .fault e t →
    push v s = .fault e t ∧ t = s) ∧
  (∀ s : State, pull s =
    busRead (BitVec.ofNat 16 (s.params.stackPage.toNat + (s.sp.toNat + 1) % 256))
      { s with sp := BitVec.ofNat 8 (s.sp.toNat + 1) })

/-- `PHA`, `PHP`, `PLA`, `PLP` (`41_stack.md` R132 to R135): the pushed status byte is `N V 1 1 D I Z C`; `PLP` takes the
six flags from bits 7, 6, 3, 2, 1, 0 and discards bits 5 and 4. -/
def Obligations.StackInstructions : Prop :=
  (HasForms .PHA [(.IMP, 0x48#8)] ∧ HasForms .PHP [(.IMP, 0x08#8)] ∧
    (∀ s t : State, push s.a s = .ok () t → exec .pha s = .next { t with pc := after s 1 }) ∧
    (∀ (s t : State) (e : BusError), push s.a s = .fault e t → FaultsWith .pha s e) ∧
    (∀ s t : State, push (s.sr ||| 0x30#8) s = .ok () t → exec .php s = .next { t with pc := after s 1 }) ∧
    (∀ (s t : State) (e : BusError), push (s.sr ||| 0x30#8) s = .fault e t → FaultsWith .php s e) ∧
    (∀ s : State, (s.sr ||| 0x30#8).toNat = 128 * s.flags.n.toNat + 64 * s.flags.v.toNat + 32 + 16 + 8 * s.flags.d.toNat +
      4 * s.flags.i.toNat + 2 * s.flags.z.toNat + s.flags.c.toNat)) ∧
  (HasForms .PLA [(.IMP, 0x68#8)] ∧ HasForms .PLP [(.IMP, 0x28#8)] ∧
    (∀ (s t : State) (v : Byte), pull s = .ok v t →
      exec .pla s = .next { t with a := v, flags := nz s.flags v, pc := after s 1 } ∧
      exec .plp s = .next { t with flags := ⟨v[7], v[6], v[3], v[2], v[1], v[0]⟩, pc := after s 1 }) ∧
    (∀ (s t : State) (e : BusError), pull s = .fault e t → FaultsWith .pla s e ∧ FaultsWith .plp s e))

/-- `ADC` (`42_arithmetic.md` R141) in its three settings of `D` and `DECIMAL_ARITH`; the decimal result is that of
`adcDecimal`, of which DecimalFormulas speaks. -/
def Obligations.AdcRule : Prop :=
  HasForms .ADC [(.IMM, 0x69#8), (.ZP, 0x65#8), (.ZPX, 0x75#8), (.ABS, 0x6D#8), (.ABX, 0x7D#8), (.ABY, 0x79#8),
    (.IZX, 0x61#8), (.IZY, 0x71#8)] ∧
  ∀ (i : Instr) (src : Source) (s : State), i.mnemonic = .ADC → i.operand = src.operand →
    (∀ m t, loadSource src s = .ok m t →
      (binaryOn s → ∃ r f, AddsBinary s m r f ∧
        exec i s = .next { t with a := r, flags := f, pc := after s i.length }) ∧
      (decimalOn s → exec i s = .next
        { t with a := (adcDecimal s.flags s.a m).1, flags := (adcDecimal s.flags s.a m).2, pc := after s i.length }) ∧
      (refuseOn s → exec i s = .refused (.decimalArithmetic .ADC))) ∧
    (∀ e t, loadSource src s = .fault e t → FaultsWith i s e)

/-- `adcDecimal` (`42_arithmetic.md` R142) and `sbcDecimal` (R144) on every operand, as numbers; for valid BCD operands the
decimal sum with its carry and the decimal difference mod 100 with its not-borrow. In decimal mode `SBC`'s accumulator is
`sbcDecimal` and its flags are those of the binary computation. That the rules' formulas hold on every operand is log entry
23. -/
def Obligations.DecimalFormulas : Prop :=
  (∀ (f : Flags) (a m : Byte),
      AddsDecimal f a m (adcDecimal f a m).1 (adcDecimal f a m).2 ∧
      (isBcd a → isBcd m → bcd (adcDecimal f a m).1 = (bcd a + bcd m + f.c.toNat) % 100 ∧ isBcd (adcDecimal f a m).1 ∧
        (adcDecimal f a m).2.c = decide (100 ≤ bcd a + bcd m + f.c.toNat))) ∧
  (∀ (f : Flags) (a m : Byte),
      ((sbcDecimal f a m).toNat : Int) = sbcFinal f.c.toNat a.toNat m.toNat % 256 ∧
      (isBcd a → isBcd m →
        bcd (sbcDecimal f a m) = (100 + bcd a + f.c.toNat - 1 - bcd m) % 100 ∧ isBcd (sbcDecimal f a m))) ∧
  (∀ (s : State) (m : Byte), decimalOn s → ∃ r g, SubtractsBinary s m r g ∧
      sbcResult s.params s.flags s.a m = (sbcDecimal s.flags s.a m, g) ∧
      (isBcd s.a → isBcd m → g.c = decide (bcd m + 1 ≤ bcd s.a + s.flags.c.toNat)))

/-- `SBC` (`42_arithmetic.md` R143) in its three settings; the flags are those of the binary computation in every mode;
the decimal accumulator is that of `sbcDecimal`, of which DecimalFormulas speaks. -/
def Obligations.SbcRule : Prop :=
  HasForms .SBC [(.IMM, 0xE9#8), (.ZP, 0xE5#8), (.ZPX, 0xF5#8), (.ABS, 0xED#8), (.ABX, 0xFD#8), (.ABY, 0xF9#8),
    (.IZX, 0xE1#8), (.IZY, 0xF1#8)] ∧
  ∀ (i : Instr) (src : Source) (s : State), i.mnemonic = .SBC → i.operand = src.operand →
    (∀ m t, loadSource src s = .ok m t →
      (binaryOn s → ∃ r f, SubtractsBinary s m r f ∧
        exec i s = .next { t with a := r, flags := f, pc := after s i.length }) ∧
      (decimalOn s → ∃ r f, SubtractsBinary s m r f ∧
        exec i s = .next { t with a := sbcDecimal s.flags s.a m, flags := f, pc := after s i.length }) ∧
      (refuseOn s → exec i s = .refused (.decimalArithmetic .SBC))) ∧
    (∀ e t, loadSource src s = .fault e t → FaultsWith i s e)

/-- `CMP`, `CPX`, `CPY` (`42_arithmetic.md` R145 to R147). -/
def Obligations.CompareRules : Prop :=
  HasForms .CMP [(.IMM, 0xC9#8), (.ZP, 0xC5#8), (.ZPX, 0xD5#8), (.ABS, 0xCD#8), (.ABX, 0xDD#8), (.ABY, 0xD9#8),
    (.IZX, 0xC1#8), (.IZY, 0xD1#8)] ∧
  Compares .CMP State.a ∧
  HasForms .CPX [(.IMM, 0xE0#8), (.ZP, 0xE4#8), (.ABS, 0xEC#8)] ∧
  Compares .CPX State.x ∧
  HasForms .CPY [(.IMM, 0xC0#8), (.ZP, 0xC4#8), (.ABS, 0xCC#8)] ∧
  Compares .CPY State.y

/-- `INC`, `INX`, `INY`, `DEC`, `DEX`, `DEY` (`42_arithmetic.md` R148 to R153). -/
def Obligations.IncDecRules : Prop :=
  HasForms .INC [(.ZP, 0xE6#8), (.ZPX, 0xF6#8), (.ABS, 0xEE#8), (.ABX, 0xFE#8)] ∧
  Modifies .INC (fun _ v => BitVec.ofNat 8 (v.toNat + 1)) (fun f v => nz f (BitVec.ofNat 8 (v.toNat + 1))) ∧
  HasForms .DEC [(.ZP, 0xC6#8), (.ZPX, 0xD6#8), (.ABS, 0xCE#8), (.ABX, 0xDE#8)] ∧
  Modifies .DEC (fun _ v => BitVec.ofNat 8 (v.toNat + 255)) (fun f v => nz f (BitVec.ofNat 8 (v.toNat + 255))) ∧
  Implied .INX 0xE8#8 (fun s =>
    { s with x := BitVec.ofNat 8 (s.x.toNat + 1), flags := nz s.flags (BitVec.ofNat 8 (s.x.toNat + 1)) }) ∧
  Implied .INY 0xC8#8 (fun s =>
    { s with y := BitVec.ofNat 8 (s.y.toNat + 1), flags := nz s.flags (BitVec.ofNat 8 (s.y.toNat + 1)) }) ∧
  Implied .DEX 0xCA#8 (fun s =>
    { s with x := BitVec.ofNat 8 (s.x.toNat + 255), flags := nz s.flags (BitVec.ofNat 8 (s.x.toNat + 255)) }) ∧
  Implied .DEY 0x88#8 (fun s =>
    { s with y := BitVec.ofNat 8 (s.y.toNat + 255), flags := nz s.flags (BitVec.ofNat 8 (s.y.toNat + 255)) })

/-- `AND`, `ORA`, `EOR` (`43_logic_shift.md` R161 to R163). -/
def Obligations.LogicRules : Prop :=
  HasForms .AND [(.IMM, 0x29#8), (.ZP, 0x25#8), (.ZPX, 0x35#8), (.ABS, 0x2D#8), (.ABX, 0x3D#8), (.ABY, 0x39#8),
    (.IZX, 0x21#8), (.IZY, 0x31#8)] ∧
  CombinesIntoA .AND (fun a m => BitVec.ofNat 8 (a.toNat &&& m.toNat)) ∧
  HasForms .ORA [(.IMM, 0x09#8), (.ZP, 0x05#8), (.ZPX, 0x15#8), (.ABS, 0x0D#8), (.ABX, 0x1D#8), (.ABY, 0x19#8),
    (.IZX, 0x01#8), (.IZY, 0x11#8)] ∧
  CombinesIntoA .ORA (fun a m => BitVec.ofNat 8 (a.toNat ||| m.toNat)) ∧
  HasForms .EOR [(.IMM, 0x49#8), (.ZP, 0x45#8), (.ZPX, 0x55#8), (.ABS, 0x4D#8), (.ABX, 0x5D#8), (.ABY, 0x59#8),
    (.IZX, 0x41#8), (.IZY, 0x51#8)] ∧
  CombinesIntoA .EOR (fun a m => BitVec.ofNat 8 (a.toNat ^^^ m.toNat))

/-- `BIT` (`43_logic_shift.md` R164): `N` and `V` from bits 7 and 6 of the memory operand, `Z` from the and. -/
def Obligations.BitRule : Prop :=
  HasForms .BIT [(.ZP, 0x24#8), (.ABS, 0x2C#8)] ∧
  ∀ (i : Instr) (src : Source) (s : State), i.mnemonic = .BIT → i.operand = src.operand →
    (∀ m t, loadSource src s = .ok m t → exec i s = .next
      { t with
        flags := { s.flags with z := decide (s.a.toNat &&& m.toNat = 0), n := m[7], v := m[6] }
        pc := after s i.length }) ∧
    (∀ e t, loadSource src s = .fault e t → FaultsWith i s e)

/-- `ASL`, `LSR`, `ROL`, `ROR` on the accumulator and on memory (`43_logic_shift.md` R165 to R168). -/
def Obligations.ShiftRules : Prop :=
  HasForms .ASL [(.ACC, 0x0A#8), (.ZP, 0x06#8), (.ZPX, 0x16#8), (.ABS, 0x0E#8), (.ABX, 0x1E#8)] ∧
  ModifiesA .ASL aslOf (fun f v => shifted f (aslOf f v) (topBit v)) ∧
  Modifies .ASL aslOf (fun f v => shifted f (aslOf f v) (topBit v)) ∧
  HasForms .LSR [(.ACC, 0x4A#8), (.ZP, 0x46#8), (.ZPX, 0x56#8), (.ABS, 0x4E#8), (.ABX, 0x5E#8)] ∧
  ModifiesA .LSR lsrOf (fun f v => shifted f (lsrOf f v) (lowBit v)) ∧
  Modifies .LSR lsrOf (fun f v => shifted f (lsrOf f v) (lowBit v)) ∧
  HasForms .ROL [(.ACC, 0x2A#8), (.ZP, 0x26#8), (.ZPX, 0x36#8), (.ABS, 0x2E#8), (.ABX, 0x3E#8)] ∧
  ModifiesA .ROL rolOf (fun f v => shifted f (rolOf f v) (topBit v)) ∧
  Modifies .ROL rolOf (fun f v => shifted f (rolOf f v) (topBit v)) ∧
  HasForms .ROR [(.ACC, 0x6A#8), (.ZP, 0x66#8), (.ZPX, 0x76#8), (.ABS, 0x6E#8), (.ABX, 0x7E#8)] ∧
  ModifiesA .ROR rorOf (fun f v => shifted f (rorOf f v) (lowBit v)) ∧
  Modifies .ROR rorOf (fun f v => shifted f (rorOf f v) (lowBit v))

/-- `JMP` absolute (`44_control_flow.md` R181) and indirect (R182, `30_encoding.md` R93): the low byte at the pointer,
then the high byte at the next address, or with `JMP_IND_PAGE_WRAP` in the same page. -/
def Obligations.JmpRules : Prop :=
  HasForms .JMP [(.ABS, 0x4C#8), (.IND, 0x6C#8)] ∧
  (∀ (target : Addr) (s : State), exec (.jmpAbs target) s = .next { s with pc := target }) ∧
  ∀ (ptr high : Addr) (s : State),
    high.toNat = (if s.params.jmpIndPageWrap then 256 * (ptr.toNat / 256) + (ptr.toNat + 1) % 256
      else (ptr.toNat + 1) % 65536) →
    (∀ l t h u, busRead ptr s = .ok l t → busRead high t = .ok h u →
      exec (.jmpInd ptr) s = .next { u with pc := BitVec.ofNat 16 (256 * h.toNat + l.toNat) }) ∧
    (∀ e t, busRead ptr s = .fault e t → FaultsWith (.jmpInd ptr) s e) ∧
    (∀ l t e u, busRead ptr s = .ok l t → busRead high t = .fault e u → FaultsWith (.jmpInd ptr) s e)

/-- `JSR` (`44_control_flow.md` R183): the address of its last byte is pushed, high byte first; `RTS` (R184): the low
byte, then the high byte are pulled and control goes one past it. -/
def Obligations.CallRules : Prop :=
  (HasForms .JSR [(.ABS, 0x20#8)] ∧
    ∀ (target : Addr) (s : State),
      (∀ t u, push (BitVec.ofNat 8 ((after s 2).toNat / 256)) s = .ok () t →
        push (BitVec.ofNat 8 ((after s 2).toNat % 256)) t = .ok () u → exec (.jsr target) s = .next { u with pc := target }) ∧
      (∀ e t, push (BitVec.ofNat 8 ((after s 2).toNat / 256)) s = .fault e t → FaultsWith (.jsr target) s e) ∧
      (∀ t e u, push (BitVec.ofNat 8 ((after s 2).toNat / 256)) s = .ok () t →
        push (BitVec.ofNat 8 ((after s 2).toNat % 256)) t = .fault e u → FaultsWith (.jsr target) s e)) ∧
  (HasForms .RTS [(.IMP, 0x60#8)] ∧
    ∀ s : State,
      (∀ l t h u, pull s = .ok l t → pull t = .ok h u →
        exec .rts s = .next { u with pc := BitVec.ofNat 16 (256 * h.toNat + l.toNat + 1) }) ∧
      (∀ e t, pull s = .fault e t → FaultsWith .rts s e) ∧
      (∀ l t e u, pull s = .ok l t → pull t = .fault e u → FaultsWith .rts s e))

/-- The eight branches (`44_control_flow.md` R185 to R192). -/
def Obligations.BranchRules : Prop :=
  Branches .BCC 0x90#8 (fun f => !f.c) ∧ Branches .BCS 0xB0#8 (fun f => f.c) ∧
  Branches .BEQ 0xF0#8 (fun f => f.z) ∧ Branches .BNE 0xD0#8 (fun f => !f.z) ∧
  Branches .BMI 0x30#8 (fun f => f.n) ∧ Branches .BPL 0x10#8 (fun f => !f.n) ∧
  Branches .BVC 0x50#8 (fun f => !f.v) ∧ Branches .BVS 0x70#8 (fun f => f.v)

/-- `BRK`, the trap entry (`44_control_flow.md` R193, `60_exceptions.md` R297): three pushes, `I` set, `D` unchanged,
control to the word at `BRK_VECTOR`; the first bus access that faults is the step's fault. -/
def Obligations.BrkRule : Prop :=
  HasForms .BRK [(.IMP, 0x00#8)] ∧
  ∀ s : State,
    (∀ t u v w target, push (BitVec.ofNat 8 ((after s 2).toNat / 256)) s = .ok () t →
      push (BitVec.ofNat 8 ((after s 2).toNat % 256)) t = .ok () u → push (s.sr ||| 0x30#8) u = .ok () v →
      memRead16 s.params.brkVector { v with flags := { s.flags with i := true } } = .ok target w →
      exec .brk s = .next { w with pc := target }) ∧
    (∀ e t, push (BitVec.ofNat 8 ((after s 2).toNat / 256)) s = .fault e t → FaultsWith .brk s e) ∧
    (∀ t e u, push (BitVec.ofNat 8 ((after s 2).toNat / 256)) s = .ok () t →
      push (BitVec.ofNat 8 ((after s 2).toNat % 256)) t = .fault e u → FaultsWith .brk s e) ∧
    (∀ t u e v, push (BitVec.ofNat 8 ((after s 2).toNat / 256)) s = .ok () t →
      push (BitVec.ofNat 8 ((after s 2).toNat % 256)) t = .ok () u → push (s.sr ||| 0x30#8) u = .fault e v →
      FaultsWith .brk s e) ∧
    (∀ t u v e w, push (BitVec.ofNat 8 ((after s 2).toNat / 256)) s = .ok () t →
      push (BitVec.ofNat 8 ((after s 2).toNat % 256)) t = .ok () u → push (s.sr ||| 0x30#8) u = .ok () v →
      memRead16 s.params.brkVector { v with flags := { s.flags with i := true } } = .fault e w → FaultsWith .brk s e)

/-- `RTI`, the trap return (`44_control_flow.md` R194, `60_exceptions.md` R298): the six flags, then the address, low
byte first, with nothing added. -/
def Obligations.RtiRule : Prop :=
  HasForms .RTI [(.IMP, 0x40#8)] ∧
  ∀ s : State,
    (∀ v t l u h w, pull s = .ok v t → pull { t with flags := ⟨v[7], v[6], v[3], v[2], v[1], v[0]⟩ } = .ok l u →
      pull u = .ok h w → exec .rti s = .next { w with pc := BitVec.ofNat 16 (256 * h.toNat + l.toNat) }) ∧
    (∀ e t, pull s = .fault e t → FaultsWith .rti s e) ∧
    (∀ v t e u, pull s = .ok v t → pull { t with flags := ⟨v[7], v[6], v[3], v[2], v[1], v[0]⟩ } = .fault e u →
      FaultsWith .rti s e) ∧
    (∀ v t l u e w, pull s = .ok v t → pull { t with flags := ⟨v[7], v[6], v[3], v[2], v[1], v[0]⟩ } = .ok l u →
      pull u = .fault e w → FaultsWith .rti s e)

/-- A trap taken and returned from with the stack in RAM and the vector in RAM or ROM: execution resumes two past the
`BRK` with the flags, the pointer and the registers as they were (`44_control_flow.md` R194, `60_exceptions.md` R298). -/
def Obligations.TrapReturns : Prop :=
  ∀ s : State, kindAt s (stackSlot s 0#8) = some .ram → kindAt s (stackSlot s 1#8) = some .ram →
    kindAt s (stackSlot s 2#8) = some .ram → plain s s.params.brkVector → plain s (s.params.brkVector + 1#16) →
    ∃ t u, exec .brk s = .next t ∧ t.flags = { s.flags with i := true } ∧ exec .rti t = .next u ∧
      u.pc = after s 2 ∧ u.flags = s.flags ∧ u.sp = s.sp ∧ u.a = s.a ∧ u.x = s.x ∧ u.y = s.y

/-- A call and the return from it with the stack in RAM: control is at the instruction after the `JSR`, the pointer,
the flags and the registers are as they were (`44_control_flow.md` R183, R184). -/
def Obligations.CallReturns : Prop :=
  ∀ (s : State) (target : Addr), kindAt s (stackSlot s 0#8) = some .ram → kindAt s (stackSlot s 1#8) = some .ram →
    ∃ t u, exec (.jsr target) s = .next t ∧ t.pc = target ∧ exec .rts t = .next u ∧
      u.pc = after s 3 ∧ u.flags = s.flags ∧ u.sp = s.sp ∧ u.a = s.a ∧ u.x = s.x ∧ u.y = s.y

/-- `CLC`, `SEC`, `CLI`, `SEI`, `CLD`, `SED`, `CLV`, `NOP` (`45_flags_nop.md` R200 to R207): all else unchanged. -/
def Obligations.FlagRules : Prop :=
  Implied .CLC 0x18#8 (fun s => { s with flags := { s.flags with c := false } }) ∧
  Implied .SEC 0x38#8 (fun s => { s with flags := { s.flags with c := true } }) ∧
  Implied .CLI 0x58#8 (fun s => { s with flags := { s.flags with i := false } }) ∧
  Implied .SEI 0x78#8 (fun s => { s with flags := { s.flags with i := true } }) ∧
  Implied .CLD 0xD8#8 (fun s => { s with flags := { s.flags with d := false } }) ∧
  Implied .SED 0xF8#8 (fun s => { s with flags := { s.flags with d := true } }) ∧
  Implied .CLV 0xB8#8 (fun s => { s with flags := { s.flags with v := false } }) ∧
  Implied .NOP 0xEA#8 (fun s => s)

/-- The operand of each addressing mode (`30_encoding.md` R83 to R96), and the effective addresses of the modes without a
pointer (R87 to R92): page zero wraps mod 256, the absolute modes mod 65536; no bus access. The word of `JMP` and `JSR` in
mode ABS is the target itself (R90). -/
def Obligations.DirectAddresses : Prop :=
  (∀ i : Instr,
      (i.mode = .IMP → i.operand = .implied) ∧ (i.mode = .ACC → i.operand = .accumulator) ∧
      (i.mode = .IMM → i.operand = .immediate i.record.op8) ∧
      (i.mode = .ZP → i.operand = .memory (.zeroPage i.record.op8)) ∧
      (i.mode = .ZPX → i.operand = .memory (.zeroPageX i.record.op8)) ∧
      (i.mode = .ZPY → i.operand = .memory (.zeroPageY i.record.op8)) ∧
      (i.mode = .ABS → i.operand =
        if i.mnemonic ∈ [Mnemonic.JMP, .JSR] then .target i.record.op16 else .memory (.absolute i.record.op16)) ∧
      (i.mode = .ABX → i.operand = .memory (.absoluteX i.record.op16)) ∧
      (i.mode = .ABY → i.operand = .memory (.absoluteY i.record.op16)) ∧
      (i.mode = .IND → i.operand = .indirect i.record.op16) ∧
      (i.mode = .IZX → i.operand = .memory (.indexedIndirect i.record.op8)) ∧
      (i.mode = .IZY → i.operand = .memory (.indirectIndexed i.record.op8)) ∧
      (i.mode = .REL → i.operand = .relative i.record.op8)) ∧
  ∀ (zp : Byte) (addr : Addr) (s : State),
    effectiveAddress (.zeroPage zp) s = .ok (BitVec.ofNat 16 zp.toNat) s ∧
    effectiveAddress (.zeroPageX zp) s = .ok (BitVec.ofNat 16 ((zp.toNat + s.x.toNat) % 256)) s ∧
    effectiveAddress (.zeroPageY zp) s = .ok (BitVec.ofNat 16 ((zp.toNat + s.y.toNat) % 256)) s ∧
    effectiveAddress (.absolute addr) s = .ok addr s ∧
    effectiveAddress (.absoluteX addr) s = .ok (BitVec.ofNat 16 (addr.toNat + s.x.toNat)) s ∧
    effectiveAddress (.absoluteY addr) s = .ok (BitVec.ofNat 16 (addr.toNat + s.y.toNat)) s

/-- A 16-bit read (`20_memory.md` R58): the low byte at `a` first, then the high byte at `(a+1) mod 65536`; the pointer
modes (`30_encoding.md` R94, R95): the pointer lies in page zero, its second byte wrapping inside the page; the operand of
a load-class instruction (`30_encoding.md` R86, R97): the immediate byte with no bus access, or the byte read at the
effective address after the pointer reads. The first of those reads that faults is the fault. -/
def Obligations.WordReads : Prop :=
  (∀ (a : Addr) (s : State),
      (∀ l t h u, busRead a s = .ok l t → busRead (BitVec.ofNat 16 (a.toNat + 1)) t = .ok h u →
        memRead16 a s = .ok (BitVec.ofNat 16 (256 * h.toNat + l.toNat)) u) ∧
      (∀ e t, busRead a s = .fault e t → memRead16 a s = .fault e t) ∧
      (∀ l t e u, busRead a s = .ok l t → busRead (BitVec.ofNat 16 (a.toNat + 1)) t = .fault e u →
        memRead16 a s = .fault e u)) ∧
  (∀ (zp : Byte) (s : State) (first second : Addr), first = BitVec.ofNat 16 ((zp.toNat + s.x.toNat) % 256) →
      second = BitVec.ofNat 16 ((zp.toNat + s.x.toNat + 1) % 256) →
      (∀ l t h u, busRead first s = .ok l t → busRead second t = .ok h u →
        effectiveAddress (.indexedIndirect zp) s = .ok (BitVec.ofNat 16 (256 * h.toNat + l.toNat)) u) ∧
      (∀ e t, busRead first s = .fault e t → effectiveAddress (.indexedIndirect zp) s = .fault e t) ∧
      (∀ l t e u, busRead first s = .ok l t → busRead second t = .fault e u →
        effectiveAddress (.indexedIndirect zp) s = .fault e u)) ∧
  (∀ (zp : Byte) (s : State) (first second : Addr), first = BitVec.ofNat 16 zp.toNat →
      second = BitVec.ofNat 16 ((zp.toNat + 1) % 256) →
      (∀ l t h u, busRead first s = .ok l t → busRead second t = .ok h u →
        effectiveAddress (.indirectIndexed zp) s = .ok (BitVec.ofNat 16 (256 * h.toNat + l.toNat + s.y.toNat)) u) ∧
      (∀ e t, busRead first s = .fault e t → effectiveAddress (.indirectIndexed zp) s = .fault e t) ∧
      (∀ l t e u, busRead first s = .ok l t → busRead second t = .fault e u →
        effectiveAddress (.indirectIndexed zp) s = .fault e u)) ∧
  (∀ s : State,
      (∀ v, loadSource (.immediate v) s = .ok v s) ∧
      (∀ o ea t, effectiveAddress o s = .ok ea t → loadSource (.memory o) s = busRead ea t) ∧
      (∀ o e t, effectiveAddress o s = .fault e t → loadSource (.memory o) s = .fault e t))

/-- `BusRead` (`20_memory.md` R53, R67): with the bindings disjoint, an address inside a binding's range reads that
binding's device at the local offset (the ACIA's registers at the offsets of `46_acia.md` R211), and nothing else changes;
an address in no range is a fatal fault. The port read of the default SPI binding and a bridge, whose behaviour is the
platform's, are the choices of log entry 16. -/
def Obligations.BusReadDispatch : Prop :=
  ∀ (s : State) (a : Addr), busDisjoint s.bus = true →
    (∀ b ∈ s.bus, b.base.toNat ≤ a.toNat → a.toNat < b.base.toNat + b.size →
      (∀ n, b.device = .ram n ∨ b.device = .rom n → busRead a s = .ok (s.mem.read a) s) ∧
      (∀ p, b.device = .spi p → busRead a s = .ok (p.readPort s.params) s) ∧
      (∀ d r, b.device = .acia d → a.toNat = b.base.toNat + aciaOffset r →
        ∃ t, busRead a s = .ok (d.read s.params r).1 t ∧ ReplacesDevice s t a b (.acia (d.read s.params r).2)) ∧
      (∀ g k, b.device = .bridge g → a.toNat = b.base.toNat + k →
        ∃ t, busRead a s = .ok (g.access s.params k none).1 t ∧
          ReplacesDevice s t a b (.bridge (g.access s.params k none).2))) ∧
    ((∀ b ∈ s.bus, ¬(b.base.toNat ≤ a.toNat ∧ a.toNat < b.base.toNat + b.size)) →
      busRead a s = .fault (.unmapped a .read) s)

/-- `BusWrite` (`20_memory.md` R54, R55, R67): the same resolution; RAM stores the byte, an ACIA (`46_acia.md` R211), an SPI
slave or a bridge is written at the local offset, and nothing else changes; an address in no range is a fatal fault. The
default SPI binding and a bridge are the choices of log entry 16. -/
def Obligations.BusWriteDispatch : Prop :=
  ∀ (s : State) (a : Addr) (v : Byte), busDisjoint s.bus = true →
    (∀ b ∈ s.bus, b.base.toNat ≤ a.toNat → a.toNat < b.base.toNat + b.size →
      (∀ n, b.device = .ram n → ∃ t, busWrite a v s = .ok () t ∧ t = { s with mem := t.mem } ∧ t.mem.read a = v ∧
        ∀ c, c ≠ a → t.mem.read c = s.mem.read c) ∧
      (∀ p, b.device = .spi p → ∃ t, busWrite a v s = .ok () t ∧ ReplacesDevice s t a b (.spi (p.write s.params v).2)) ∧
      (∀ d r, b.device = .acia d → a.toNat = b.base.toNat + aciaOffset r →
        ∃ t, busWrite a v s = .ok () t ∧ ReplacesDevice s t a b (.acia (d.write s.params v r))) ∧
      (∀ g k, b.device = .bridge g → a.toNat = b.base.toNat + k →
        ∃ t, busWrite a v s = .ok () t ∧ ReplacesDevice s t a b (.bridge (g.access s.params k (some v)).2))) ∧
    ((∀ b ∈ s.bus, ¬(b.base.toNat ≤ a.toNat ∧ a.toNat < b.base.toNat + b.size)) →
      busWrite a v s = .fault (.unmapped a .write) s)

/-- A write to a ROM address (`20_memory.md` R56): with `ROM_WRITE = fault` it raises `RomWriteError`, with `ignore` it
has no effect. -/
def Obligations.RomWrites : Prop :=
  ∀ (s : State) (a : Addr) (v : Byte), kindAt s a = some .rom →
    busRead a s = .ok (s.mem.read a) s ∧
    (s.params.romWrite = .fault → busWrite a v s = .fault (.romWrite a v) s) ∧
    (s.params.romWrite = .ignore → busWrite a v s = .ok () s)

/-- `attach` (`20_memory.md` R52): it fails with a configuration error past 0xFFFF and for a device of size 0
(`92_eei_decisions.md` D12, log entry 15), with an overlap error that records both bindings on an existing one it
intersects, and otherwise adds the binding at the end; a table without overlaps stays one. -/
def Obligations.AttachRule : Prop :=
  ∀ (d : Device) (name : String) (base : Addr) (bus : List Binding),
    (d.size = 0 ∨ 0x10000 < base.toNat + d.size → attach d name base bus = .error (.configuration ⟨name, base, d⟩)) ∧
    (0 < d.size → base.toNat + d.size ≤ 0x10000 →
      ((∃ b ∈ bus, base.toNat < b.base.toNat + b.size ∧ b.base.toNat < base.toNat + d.size) →
        ∃ b ∈ bus, base.toNat < b.base.toNat + b.size ∧ b.base.toNat < base.toNat + d.size ∧
          attach d name base bus = .error (.overlap ⟨name, base, d⟩ b)) ∧
      ((∀ b ∈ bus, ¬(base.toNat < b.base.toNat + b.size ∧ b.base.toNat < base.toNat + d.size)) →
        attach d name base bus = .ok (bus ++ [⟨name, base, d⟩]) ∧
        (busDisjoint bus = true → busDisjoint (bus ++ [⟨name, base, d⟩]) = true)))

/-- The ACIA's programmed reset, through the bus (`46_acia.md` R219, R214): a write of any value to the status offset
leaves the ACIA in its reset state with its peripheral, and changes nothing else. -/
def Obligations.AciaProgrammedReset : Prop :=
  ∀ (s : State) (a : Addr) (v : Byte) (b : Binding) (d : Acia), findBinding s.bus a = some b → b.device = .acia d →
    a.toNat = b.base.toNat + 1 →
    ∃ t, busWrite a v s = .ok () t ∧ ReplacesDevice s t a b (.acia (Acia.powerOn d.peripheral))

/-- The ACIA's data read (`46_acia.md` R215, R223): the pull happens only with no unread byte and a reading peripheral,
`nothing` and `error` leave `rx`, both flags are cleared, the byte is `rx`. Its other reads (R216, R217) have no side
effect and give the status bits at their positions (any other bit 0) and the stored bytes. -/
def Obligations.AciaReads : Prop :=
  (∀ (ps : Params) (d : Acia),
      (d.rxFull = true ∨ d.peripheral.capability = .none ∨ d.peripheral.capability = .write →
        d.read ps .data = (d.rx, { d with rxFull := false, overrun := false })) ∧
      (d.rxFull = false → (d.peripheral.capability = .read ∨ d.peripheral.capability = .bidirectional) →
        (∀ v p, d.peripheral.read = (.got v, p) →
          d.read ps .data = (v, { d with rx := v, rxFull := false, overrun := false, peripheral := p })) ∧
        (∀ r p, d.peripheral.read = (r, p) → (r = .nothing ∨ r = .error) →
          d.read ps .data = (d.rx, { d with rxFull := false, overrun := false, peripheral := p })))) ∧
  (∀ (ps : Params) (d : Acia),
      (d.read ps .status).2 = d ∧ d.read ps .command = (d.command, d) ∧ d.read ps .control = (d.control, d) ∧
      ∀ k : Fin 8, (d.read ps .status).1[k] =
        ((d.overrun && k == ps.aciaOverrunBit) || (d.rxFull && k == ps.aciaRxFullBit) ||
          (d.txEmpty && k == ps.aciaTxEmptyBit)))

/-- The ACIA's writes (`46_acia.md` R218, R220, R221, R223). -/
def Obligations.AciaWrites : Prop :=
  ∀ (ps : Params) (d : Acia) (v : Byte),
    (d.peripheral.capability = .none ∨ d.peripheral.capability = .read →
      d.write ps v .data = { d with tx := v, txEmpty := false }) ∧
    ((d.peripheral.capability = .write ∨ d.peripheral.capability = .bidirectional) → ∀ r p,
      d.peripheral.write v = (r, p) →
      d.write ps v .data = { d with tx := v, txEmpty := decide (r ≠ .rejected), peripheral := p }) ∧
    d.write ps v .command =
      { d with
        command := v
        rxIrqEnabled := decide (v &&& ps.aciaCmdRxIrqMask ≠ 0#8)
        txIrqEnabled := decide (v &&& ps.aciaCmdTxIrqMask ≠ 0#8) } ∧
    d.write ps v .control = { d with control := v }

/-- The receive event (`46_acia.md` R226) between two CPU steps, in the model's form of an agenda (log entry 10):
`overrun` if a byte was unread, the new byte held, nothing else changed; if `ACIA_RX_PUSH` is false it does not exist. -/
def Obligations.AciaReceive : Prop :=
  ∀ (s : State) (a : Addr) (v : Byte) (rest : List Move) (b : Binding) (d : Acia), s.run = .running →
    s.agenda = .receive a v :: rest → findBinding s.bus a = some b → b.device = .acia d →
    (s.params.aciaRxPush = false → step s = .next { s with agenda := rest }) ∧
    (s.params.aciaRxPush = true → ∃ t, step s = .next t ∧
      ReplacesDevice { s with agenda := rest } t a b
        (.acia { d with overrun := d.overrun || d.rxFull, rx := v, rxFull := true }))

/-- Eight bits sent to an SPI slave between bytes (`47_spi_slave.md` R244 to R248, R253): the assembled byte is the one
written, most significant bit first, `Done` is set, the consumer's answer is queued, and after the `k`-th edge the MISO
line is bit `8-k` of the byte that was at the head of the queue, or of the filler 0xFF. -/
def Obligations.SpiByteExchange : Prop :=
  ∀ (ps : Params) (p : Spi) (v : Byte), ps.spiSclkBit ≠ ps.spiMosiBit → p.bitCount = 0 →
    (sendBits ps v 8 p).mosiShift = v ∧ (sendBits ps v 8 p).done = true ∧ (sendBits ps v 8 p).bitCount = 0 ∧
    (sendBits ps v 8 p).received = p.received ++ [v] ∧
    (sendBits ps v 8 p).misoQueue = p.misoQueue.tail ++ p.response v ∧
    ∀ k, 1 ≤ k → k ≤ 8 → (sendBits ps v k p).misoLine = bit (p.misoQueue.headD 0xFF#8) (8 - k)

/-- A write to the SPI port that makes no rising edge (`47_spi_slave.md` R245) only updates the clock level and the
last port byte; a write returns whether it made an edge. The port read, the last port byte with the MISO bit replaced by
the MISO line, is that of R254's default binding, the choice of log entry 16. -/
def Obligations.SpiWithoutEdge : Prop :=
  ∀ (ps : Params) (p : Spi) (port : Byte),
    ((p.write ps port).1 = true ↔ p.prevClk = false ∧ bit port ps.spiSclkBit = true) ∧
    (¬(p.prevClk = false ∧ bit port ps.spiSclkBit = true) →
      (p.write ps port).2 = { p with prevClk := bit port ps.spiSclkBit, lastPort := port }) ∧
    (∀ k : Fin 8, (p.readPort ps)[k] = if k = ps.spiMisoBit then p.misoLine else p.lastPort[k])

/-- DBG's hook (`48_breakpoint_engine.md` R262 to R265): with no match and free-run set it changes nothing; otherwise
the notices are shown in their order, free-run is clear, a matching one-shot address trigger is disabled, the CPU
registers, the memory and the devices are as before, and the machine is paused at the instruction. -/
def Obligations.HookRule : Prop :=
  ∀ (i : Instr) (rest : List Monitor) (s : State),
    (expectedNotices i s = [] ∧ s.dbg.freeRun = true → runHooks i (.dbg :: rest) s = runHooks i rest s) ∧
    (¬(expectedNotices i s = [] ∧ s.dbg.freeRun = true) → ∃ t shown, runHooks i (.dbg :: rest) s = .pause t ∧
      t.run = .paused i rest false ∧ SameMachine s t ∧ t.bus = s.bus ∧
      t.trace = s.trace ++ expectedNotices i s ++ [shown] ∧
      t.dbg = { s.dbg with
        freeRun := false
        bpAddr := { s.dbg.bpAddr with
          enabled := s.dbg.bpAddr.enabled && !(decide (s.pc = s.dbg.bpAddr.value) && s.dbg.bpAddr.oneShot) } })

/-- The effect of the commands given at a pause (`48_breakpoint_engine.md` R271 to R278, R280, R281): `help` and an invalid
line stay and show something, `exit` places 0 on the halt channel unless a value stands there (log entry 22), `read`,
`read16`, `read32` are one, two, four bus reads in ascending order, combined little-endian, the first of which that faults is fatal. The trace
and the form of the shown result are the model's own record (log entry 17). -/
def Obligations.CommandEffects : Prop :=
  (∀ (i : Instr) (s : State),
      (∀ a, runCommand i (.breakAddress a) s = .stay { s with dbg := { s.dbg with bpAddr := ⟨true, a, false⟩ } }) ∧
      (∀ m, runCommand i (.breakInstruction m) s = .stay { s with dbg := { s.dbg with bpInstr := ⟨true, m⟩ } }) ∧
      (∀ v, runCommand i (.breakRegister .A v) s = .stay { s with dbg := { s.dbg with bpA := ⟨true, v⟩ } }) ∧
      (∀ v, runCommand i (.breakRegister .X v) s = .stay { s with dbg := { s.dbg with bpX := ⟨true, v⟩ } }) ∧
      (∀ v, runCommand i (.breakRegister .Y v) s = .stay { s with dbg := { s.dbg with bpY := ⟨true, v⟩ } }) ∧
      runCommand i .stepOver s =
        .release { s with dbg := { s.dbg with bpAddr := ⟨true, after s i.length, true⟩, freeRun := true } } ∧
      runCommand i .resume s = .release { s with dbg := { s.dbg with freeRun := true } } ∧
      runCommand i .stepOne s = .release s ∧
      (s.haltStatus = none → runCommand i .exit s = .halt { s with haltStatus := some 0 }) ∧
      (∀ k, s.haltStatus = some k → runCommand i .exit s = .halt s) ∧
      (∃ shown, runCommand i .help s = .stay { s with trace := s.trace ++ [shown] }) ∧
      (∀ e, ∃ shown, runCommand i (.invalid e) s = .stay { s with trace := s.trace ++ [shown] })) ∧
  (∀ (i : Instr) (a : Addr) (s t0 t1 t2 t3 : State) (v0 v1 v2 v3 : Byte), busRead a s = .ok v0 t0 →
      runCommand i (.read 1 a) s = .stay (t0.emit (.readResult 1 a v0.toNat)) ∧
      (busRead (BitVec.ofNat 16 (a.toNat + 1)) t0 = .ok v1 t1 →
        runCommand i (.read 2 a) s = .stay (t1.emit (.readResult 2 a (v0.toNat + 256 * v1.toNat))) ∧
        (busRead (BitVec.ofNat 16 (a.toNat + 2)) t1 = .ok v2 t2 → busRead (BitVec.ofNat 16 (a.toNat + 3)) t2 = .ok v3 t3 →
          runCommand i (.read 4 a) s =
            .stay (t3.emit (.readResult 4 a (v0.toNat + 256 * v1.toNat + 65536 * v2.toNat + 16777216 * v3.toNat)))))) ∧
  (∀ (i : Instr) (a : Addr) (s : State) (e : BusError) (f : Fault), f = e.toFault ⟨some s.pc, some i.opcode⟩ →
      (∀ t, busRead a s = .fault e t →
        runCommand i (.read 1 a) s = .fault f ∧ runCommand i (.read 2 a) s = .fault f ∧
        runCommand i (.read 4 a) s = .fault f) ∧
      (∀ v0 t0 t, busRead a s = .ok v0 t0 → busRead (BitVec.ofNat 16 (a.toNat + 1)) t0 = .fault e t →
        runCommand i (.read 2 a) s = .fault f ∧ runCommand i (.read 4 a) s = .fault f) ∧
      (∀ v0 t0 v1 t1 t, busRead a s = .ok v0 t0 → busRead (BitVec.ofNat 16 (a.toNat + 1)) t0 = .ok v1 t1 →
        busRead (BitVec.ofNat 16 (a.toNat + 2)) t1 = .fault e t → runCommand i (.read 4 a) s = .fault f) ∧
      (∀ v0 t0 v1 t1 v2 t2 t, busRead a s = .ok v0 t0 → busRead (BitVec.ofNat 16 (a.toNat + 1)) t0 = .ok v1 t1 →
        busRead (BitVec.ofNat 16 (a.toNat + 2)) t1 = .ok v2 t2 → busRead (BitVec.ofNat 16 (a.toNat + 3)) t2 = .fault e t →
        runCommand i (.read 4 a) s = .fault f))

/-- Command lines (`48_breakpoint_engine.md` R270 to R273, R278): a line is cut into tokens at white space and read without
case; the first token selects the command, every word and every alias of the table as it says, any other word being
unknown; the arguments of each; what a line that is not empty and an empty line do. Choices of log entry 18, which R270,
R273, R278 and R281 leave open: that white space is the four characters of `separators`, that a line of white space alone is
an empty line, that tokens after the arguments are ignored, that a register name other than `a`, `x`, `y` is an input error,
and that the address of a read must fit 16 bits. -/
def Obligations.CommandGrammar : Prop :=
  (∀ (ps : Params) (pc : Addr) (w : Text) (args : List Text),
      (isOneOf w ["continue", "c"] → parseTokens ps pc (w :: args) = .resume) ∧
      (isOneOf w ["exit", "quit", "q"] → parseTokens ps pc (w :: args) = .exit) ∧
      (isOneOf w ["help", "h", "?"] → parseTokens ps pc (w :: args) = .help) ∧
      (isOneOf w ["next", "n"] → parseTokens ps pc (w :: args) = .stepOver) ∧
      (isOneOf w ["step", "s", "st"] → parseTokens ps pc (w :: args) = .stepOne) ∧
      (¬isOneOf w commandNames → parseTokens ps pc (w :: args) = .invalid .unknownCommand)) ∧
  (∀ (ps : Params) (pc : Addr) (w t r : Text) (rest : List Text),
      (isOneOf w ["break-address", "ba"] → TakesNumber 16 ps pc t (parseTokens ps pc (w :: t :: rest)) .breakAddress) ∧
      (isOneOf w ["break-instruction", "bi"] → parseTokens ps pc (w :: t :: rest) = .breakInstruction (upperText t)) ∧
      (isOneOf w ["break-register", "br"] →
        (r = ['a'] → TakesNumber 8 ps pc t (parseTokens ps pc (w :: r :: t :: rest)) (.breakRegister .A)) ∧
        (r = ['x'] → TakesNumber 8 ps pc t (parseTokens ps pc (w :: r :: t :: rest)) (.breakRegister .X)) ∧
        (r = ['y'] → TakesNumber 8 ps pc t (parseTokens ps pc (w :: r :: t :: rest)) (.breakRegister .Y)) ∧
        (r ∉ [['a'], ['x'], ['y']] → parseTokens ps pc (w :: r :: t :: rest) = .invalid .badArgument)) ∧
      (w = "read".toList → TakesNumber 16 ps pc t (parseTokens ps pc (w :: t :: rest)) (.read 1)) ∧
      (w = "read16".toList → TakesNumber 16 ps pc t (parseTokens ps pc (w :: t :: rest)) (.read 2)) ∧
      (w = "read32".toList → TakesNumber 16 ps pc t (parseTokens ps pc (w :: t :: rest)) (.read 4))) ∧
  (∀ (ps : Params) (pc : Addr) (line other : Text),
      ((∀ c ∈ line, ¬(65 ≤ c.toNat ∧ c.toNat ≤ 90)) → parseCommand ps pc line = parseTokens ps pc (tokens line)) ∧
      (List.Forall₂ SameLetter line other → parseCommand ps pc line = parseCommand ps pc other)) ∧
  (tokens [] = [] ∧
    ∀ (w line : Text) (c : Char), c ∈ separators →
      tokens (c :: line) = tokens line ∧ (IsToken w → tokens w = [w] ∧ tokens (w ++ c :: line) = w :: tokens line)) ∧
  (∀ (i : Instr) (line : Text) (s : State),
      (tokens line ≠ [] → takeLine i line s =
        runCommand i (parseCommand s.params s.pc line) { s with dbg := { s.dbg with lastCommand := some line } }) ∧
      (tokens line = [] → s.dbg.lastCommand = none → takeLine i line s = .stay s) ∧
      (∀ last, tokens line = [] → s.dbg.lastCommand = some last → takeLine i line s = takeLine i last s)) ∧
  (∀ pc : Addr,
      parseCommand Params.default pc "BA $1003".toList = .breakAddress 0x1003#16 ∧
      parseCommand Params.default pc "break-address 0x1003".toList = .breakAddress 0x1003#16 ∧
      parseCommand Params.default pc "ba 1000".toList = .breakAddress 0x03E8#16 ∧
      parseCommand Params.default pc "ba .".toList = .breakAddress pc ∧
      parseCommand Params.default pc "ba 65536".toList = .invalid .badArgument ∧
      parseCommand Params.default pc "bi rts".toList = .breakInstruction "RTS".toList ∧
      parseCommand Params.default pc "break-register x $ff".toList = .breakRegister .X 0xFF#8 ∧
      parseCommand Params.default pc "br y 256".toList = .invalid .badArgument ∧
      parseCommand Params.default pc "Continue".toList = .resume ∧
      parseCommand Params.default pc "q".toList = .exit ∧
      parseCommand Params.default pc "next".toList = .stepOver ∧
      parseCommand Params.default pc "st".toList = .stepOne ∧
      parseCommand Params.default pc "read16 $1000".toList = .read 2 0x1000#16 ∧
      parseCommand Params.default pc "frobnicate".toList = .invalid .unknownCommand)

/-- No command changes a CPU register or a byte of memory (`48_breakpoint_engine.md` R282), nor the layout of the bus;
only a releasing command or exit ends the pause; a read reaches the devices. -/
def Obligations.DebuggerChangesNoCpu : Prop :=
  ∀ (i : Instr) (line : Text) (s t : State),
    (takeLine i line s = .stay t ∨ takeLine i line s = .release t ∨ takeLine i line s = .halt t) →
      SameMachine s t ∧ busLayout t.bus = busLayout s.bus ∧ t.params = s.params ∧ t.monitors = s.monitors

/-- The paused machine (`48_breakpoint_engine.md` R265): it waits for the host for ever, which is no fault; a line is
dispatched; a releasing command and `exit` end DBG's hook, the monitors after it are called, and then the instruction runs,
or after `exit` the machine halts without running it (`30_encoding.md` R80, `48_breakpoint_engine.md` R275). With no other
DBG after it, `exit` halts with status 0 (or the value that stood on the channel, log entry 22), `PC` still at the
instruction, no register, memory byte or device changed. One line per step is the choice of log entry 9, the agenda that of
log entry 10, what other monitors do that of log entry 21. -/
def Obligations.PausedMachine : Prop :=
  ∀ (s : State) (i : Instr) (rest : List Monitor) (ex : Bool), s.run = .paused i rest ex → s.agenda = [] →
    (s.commands = [] → step s = .next s) ∧
    (∀ line lines, s.commands = line :: lines →
      (∀ t, takeLine i line { s with commands := lines } = .stay t → step s = .next t) ∧
      (∀ t, takeLine i line { s with commands := lines } = .release t → AfterDbg ex i rest t (step s)) ∧
      (∀ t, takeLine i line { s with commands := lines } = .halt t → AfterDbg true i rest t (step s)) ∧
      (∀ f, takeLine i line { s with commands := lines } = .fault f → step s = .fault f) ∧
      (tokens line ≠ [] → parseCommand s.params s.pc line = .exit → .dbg ∉ rest → ∃ t, step s = .next t ∧
        t.run = .halted (s.haltStatus.getD 0) ∧ t.haltStatus = some (s.haltStatus.getD 0) ∧ SameMachine s t ∧
        t.bus = s.bus))

/-- The halt channel and the terminal states (`10_state.md` R28, R29, `60_exceptions.md` R300): a placed value stops the
loop before the next step, the slot is one-shot; a host halt that arrives while DBG waits for input is placed and does not
wake it; `Halted` takes no step, `Faulted` is no next state. That the host's signals stand on an agenda and that a signal
has no status 0 are the choices of log entries 10 and 14; that a halted machine answers itself and a faulted one its fault is
that of log entry 11. -/
def Obligations.HaltChannel : Prop :=
  ∀ s : State,
    (∀ k, s.run = .running → s.agenda = [] → s.haltStatus = some k → step s = .next { s with run := .halted k }) ∧
    (∀ k moves, s.run = .running → s.agenda = .halt k :: moves → k ≠ 0 →
      step s = .next { s with agenda := moves, haltStatus := some (s.haltStatus.getD k) }) ∧
    (∀ i rest ex k moves, s.run = .paused i rest ex → s.agenda = .halt k :: moves → k ≠ 0 →
      step s = .next { s with agenda := moves, haltStatus := some (s.haltStatus.getD k) }) ∧
    (∀ i rest ex k, s.run = .paused i rest ex → s.haltStatus = some k → s.agenda = [] → s.commands = [] →
      step s = .next s) ∧
    (∀ k, s.run = .halted k → step s = .next s) ∧
    (∀ f, s.run = .faulted f → step s = .fault f)

/-- CPU `reset()` (`70_reset_and_hazards.md` R320): the little-endian word at `RESET_VECTOR`, low byte first, `I` set, the
other flags as given, running; a fault of either read is the reset's; nothing else changes but what the reads do. -/
def Obligations.CpuReset : Prop :=
  ∀ (f : ResetFlags) (s : State),
    (∀ l t h u, busRead s.params.resetVector s = .ok l t → busRead (BitVec.ofNat 16 (s.params.resetVector.toNat + 1)) t =
      .ok h u → cpuReset f s = .ok ()
        { u with
          pc := BitVec.ofNat 16 (256 * h.toNat + l.toNat)
          flags := { n := f.n, v := f.v, d := f.d, i := true, z := f.z, c := f.c }
          run := .running }) ∧
    (∀ e t, busRead s.params.resetVector s = .fault e t → cpuReset f s = .fault e t) ∧
    (∀ l t e u, busRead s.params.resetVector s = .ok l t →
      busRead (BitVec.ofNat 16 (s.params.resetVector.toNat + 1)) t = .fault e u → cpuReset f s = .fault e u)

/-- What the spec states of the machine after power-on and reset (`10_state.md` R34): `I = 1`, `PC` the word at the reset
vector, running, no halt value, the ACIA, SPI slave and debugger in their initial states. The bus map it reads is the choice
of log entry 4. -/
def Obligations.ResetValues : Prop :=
  State.reset.flags.i = true ∧ State.reset.run = .running ∧ State.reset.haltStatus = none ∧
  (∃ t, memRead16 State.reset.params.resetVector State.reset = .ok State.reset.pc t) ∧
  State.reset.dbg.bpAddr.enabled = false ∧ State.reset.dbg.bpInstr.enabled = false ∧
  State.reset.dbg.bpA.enabled = false ∧ State.reset.dbg.bpX.enabled = false ∧ State.reset.dbg.bpY.enabled = false ∧
  State.reset.dbg.freeRun = false ∧ State.reset.dbg.lastCommand = none ∧
  (∀ b ∈ State.reset.bus, ∀ d, b.device = .acia d → d.rx = 0#8 ∧ d.tx = 0#8 ∧ d.rxFull = false ∧ d.txEmpty = true ∧
    d.overrun = false ∧ d.command = 0#8 ∧ d.control = 0#8 ∧ d.rxIrqEnabled = false ∧ d.txIrqEnabled = false) ∧
  (∀ b ∈ State.reset.bus, ∀ p, b.device = .spi p → p.mosiShift = 0#8 ∧ p.misoShift = 0#8 ∧ p.bitCount = 0 ∧
    p.done = false ∧ p.prevClk = false ∧ p.misoLine = true ∧ p.lastPort = 0#8 ∧ p.misoQueue = [0x00#8, 0x00#8, 0xFF#8])

/-- Address and value arguments (`48_breakpoint_engine.md` R279): `.` is `PC`; a symbol with exactly one address is that
address, with more than one it is ambiguous, with none the argument is read as a number: `$` or `0x` and hexadecimal
digits, or decimal digits; anything else is a bad argument. The text of a command is in lower case, and that a symbol's label
is compared without case is a choice of log entry 18. -/
def Obligations.ArgumentRule : Prop :=
  ∀ (ps : Params) (pc : Addr) (t : Text),
    resolve ps pc ['.'] = .ok pc.toNat ∧
    (t ≠ ['.'] →
      (∀ a : Addr, (∃ e ∈ ps.symbols, lowerText e.label = t ∧ e.address = a) →
        (∀ e ∈ ps.symbols, lowerText e.label = t → e.address = a) → resolve ps pc t = .ok a.toNat) ∧
      ((∃ e ∈ ps.symbols, ∃ e' ∈ ps.symbols, lowerText e.label = t ∧ lowerText e'.label = t ∧ e.address ≠ e'.address) →
        resolve ps pc t = .error .ambiguousSymbol) ∧
      ((∀ e ∈ ps.symbols, lowerText e.label ≠ t) →
        (∀ n, NumberIs t n → resolve ps pc t = .ok n) ∧
        ((∀ n, ¬NumberIs t n) → resolve ps pc t = .error .badArgument)))
end

