-- ==== Sys2Proof/Laws/Bits.lean ====
section
/-! SUPPORT. Byte order, extension and address arithmetic as numbers. -/

namespace Sys2Proof.Machine

open Sys2Proof

/-- `word(h, l) = 256*h + l` (`00_scope.md` R11). -/
theorem word_eq_ofNat (h l : Byte) : word h l = BitVec.ofNat 16 (256 * h.toNat + l.toNat) := by
  unfold word
  apply BitVec.eq_of_toNat_eq
  have hh := h.isLt
  have hl := l.isLt
  have e : (BitVec.setWidth 16 h <<< 8).toNat = h.toNat <<< 8 := by simp [Nat.shiftLeft_eq]; omega
  rw [BitVec.toNat_or, e, BitVec.toNat_setWidth, BitVec.toNat_ofNat, Nat.mod_eq_of_lt (by omega : l.toNat < 2 ^ 16),
    ← Nat.shiftLeft_add_eq_or_of_lt hl, Nat.shiftLeft_eq]
  omega

theorem hi_eq_ofNat (w : Addr) : hi w = BitVec.ofNat 8 (w.toNat / 256) := by
  apply BitVec.eq_of_toNat_eq; simp [hi, Nat.shiftRight_eq_div_pow]

theorem lo_eq_ofNat (w : Addr) : lo w = BitVec.ofNat 8 (w.toNat % 256) := by apply BitVec.eq_of_toNat_eq; simp [lo]

theorem zext_eq_ofNat (v : Byte) : zext v = BitVec.ofNat 16 v.toNat := by apply BitVec.eq_of_toNat_eq; simp [zext]

/-- The two bytes of a word make the word. -/
theorem word_hi_lo (w : Addr) : word (hi w) (lo w) = w := by
  have h := w.isLt
  rw [word_eq_ofNat, hi_eq_ofNat, lo_eq_ofNat]
  apply BitVec.eq_of_toNat_eq
  simp only [BitVec.toNat_ofNat]
  omega

theorem lo_word (h l : Byte) : lo (word h l) = l := by
  have hh := h.isLt
  have hl := l.isLt
  rw [word_eq_ofNat, lo_eq_ofNat]
  apply BitVec.eq_of_toNat_eq
  simp only [BitVec.toNat_ofNat]
  omega

theorem hi_word (h l : Byte) : hi (word h l) = h := by
  have hh := h.isLt
  have hl := l.isLt
  rw [word_eq_ofNat, hi_eq_ofNat]
  apply BitVec.eq_of_toNat_eq
  simp only [BitVec.toNat_ofNat]
  omega

/-- Address arithmetic is mod 65536 (`00_scope.md` R11). -/
theorem addr_add_ofNat (a : Addr) (n : Nat) : a + BitVec.ofNat 16 n = BitVec.ofNat 16 (a.toNat + n) := by
  apply BitVec.eq_of_toNat_eq; simp

theorem byte_add_one (v : Byte) : v + 1#8 = BitVec.ofNat 8 (v.toNat + 1) := by apply BitVec.eq_of_toNat_eq; simp

theorem byte_sub_one (v : Byte) : v - 1#8 = BitVec.ofNat 8 (v.toNat + 255) := by
  apply BitVec.eq_of_toNat_eq; simp; omega

/-- The stack byte under the pointer is at `STACK_PAGE + SP` (`10_state.md` R22). -/
theorem stackAddr_eq_ofNat (s : State) : s.stackAddr = BitVec.ofNat 16 (s.params.stackPage.toNat + s.sp.toNat) := by
  unfold State.stackAddr; rw [zext_eq_ofNat, addr_add_ofNat]

/-- The pushed status byte, pulled, gives the flags back. -/
theorem ofByte_pushed (f : Flags) : Flags.ofByte f.pushed = f := by
  obtain ⟨n, v, d, i, z, c⟩ := f; revert n v d i z c; decide

end Sys2Proof.Machine
end

