-- ==== Sys2Proof/Laws/Memory.lean ====
section
/-! SUPPORT. The laws of the memory: read after write, a write leaves the other addresses alone, and every operation
keeps the canonical form. -/

namespace Sys2Proof.Machine

open Sys2Proof

theorem Memory.readAt_erase_same (m : Memory) (k : Nat) : Memory.readAt (Memory.erase k m) k = Memory.blank := by
  induction m with
  | nil => rfl
  | cons c rest ih =>
    obtain ⟨a, v⟩ := c
    by_cases h : a = k <;> simp [Memory.erase, Memory.readAt, h, ih]

theorem Memory.readAt_erase_other (m : Memory) {k j : Nat} (h : j ≠ k) :
    Memory.readAt (Memory.erase k m) j = Memory.readAt m j := by
  induction m with
  | nil => rfl
  | cons c rest ih =>
    obtain ⟨a, v⟩ := c
    by_cases ha : a = k
    · simp [Memory.erase, Memory.readAt, ha, ih, Ne.symm h]
    · simp [Memory.erase, Memory.readAt, ha, ih]

theorem Memory.readAt_insert_same (m : Memory) (k : Nat) (v : Byte) (h : ∀ w, (k, w) ∉ m) :
    Memory.readAt (Memory.insert k v m) k = v := by
  induction m with
  | nil => simp [Memory.insert, Memory.readAt]
  | cons c rest ih =>
    obtain ⟨a, w⟩ := c
    have ha : a ≠ k := fun e => h w (by simp [e])
    have hr : ∀ w, (k, w) ∉ rest := fun u hu => h u (List.mem_cons_of_mem _ hu)
    by_cases hk : k < a
    · simp [Memory.insert, Memory.readAt, hk]
    · simp [Memory.insert, Memory.readAt, hk, ha, ih hr]

theorem Memory.readAt_insert_other (m : Memory) {k j : Nat} (v : Byte) (h : j ≠ k) :
    Memory.readAt (Memory.insert k v m) j = Memory.readAt m j := by
  induction m with
  | nil => simp [Memory.insert, Memory.readAt, Ne.symm h]
  | cons c rest ih =>
    obtain ⟨a, w⟩ := c
    by_cases hk : k < a <;> simp [Memory.insert, Memory.readAt, hk, ih, Ne.symm h]

theorem Memory.not_mem_erase (m : Memory) (k : Nat) (w : Byte) : (k, w) ∉ Memory.erase k m := by
  induction m with
  | nil => simp [Memory.erase]
  | cons c rest ih =>
    obtain ⟨a, v⟩ := c
    by_cases h : a = k
    · simp [Memory.erase, h, ih]
    · simp [Memory.erase, h, ih, Ne.symm h]

theorem Memory.toNat_ne {a b : Addr} (h : a ≠ b) : a.toNat ≠ b.toNat := fun e => h (BitVec.eq_of_toNat_eq e)

/-- Read after a write to the same address. -/
@[simp] theorem Memory.read_write_same (m : Memory) (a : Addr) (v : Byte) : (m.write a v).read a = v := by
  unfold Memory.write Memory.read
  split
  · next h => rw [Memory.readAt_erase_same, h]
  · exact Memory.readAt_insert_same _ _ _ fun w => Memory.not_mem_erase m _ w

/-- Read after a write to another address. -/
theorem Memory.read_write_other (m : Memory) {a b : Addr} (v : Byte) (h : b ≠ a) : (m.write a v).read b = m.read b := by
  unfold Memory.write Memory.read
  split
  · exact Memory.readAt_erase_other m (Memory.toNat_ne h)
  · rw [Memory.readAt_insert_other _ _ (Memory.toNat_ne h), Memory.readAt_erase_other m (Memory.toNat_ne h)]

/-- Read after a write to any address. -/
theorem Memory.read_write (m : Memory) (a b : Addr) (v : Byte) :
    (m.write a v).read b = if b = a then v else m.read b := by
  by_cases h : b = a
  · simp [h]
  · simp [h, Memory.read_write_other m v h]

theorem Memory.wfFrom_mono {m : Memory} {l k : Nat} (h : l ≤ k) (w : Memory.wfFrom k m = true) :
    Memory.wfFrom l m = true := by
  cases m with
  | nil => rfl
  | cons c rest =>
    obtain ⟨a, v⟩ := c
    simp only [Memory.wfFrom, Bool.and_eq_true, decide_eq_true_eq] at w ⊢
    exact ⟨⟨⟨by omega, w.1.1.2⟩, w.1.2⟩, w.2⟩

theorem Memory.wfFrom_erase {m : Memory} {l : Nat} (k : Nat) (w : Memory.wfFrom l m = true) :
    Memory.wfFrom l (Memory.erase k m) = true := by
  induction m generalizing l with
  | nil => rfl
  | cons c rest ih =>
    obtain ⟨a, v⟩ := c
    simp only [Memory.wfFrom, Bool.and_eq_true, decide_eq_true_eq] at w
    unfold Memory.erase
    split
    · exact ih (Memory.wfFrom_mono (by omega) w.2)
    · simp only [Memory.wfFrom, Bool.and_eq_true, decide_eq_true_eq]
      exact ⟨w.1, ih w.2⟩

theorem Memory.wfFrom_insert {m : Memory} {l k : Nat} {v : Byte} (w : Memory.wfFrom l m = true) (hl : l ≤ k)
    (hk : k < 65536) (hv : v ≠ Memory.blank) (hm : ∀ u, (k, u) ∉ m) :
    Memory.wfFrom l (Memory.insert k v m) = true := by
  induction m generalizing l with
  | nil => simp [Memory.insert, Memory.wfFrom, hl, hk, hv]
  | cons c rest ih =>
    obtain ⟨a, u⟩ := c
    simp only [Memory.wfFrom, Bool.and_eq_true, decide_eq_true_eq] at w
    have ha : a ≠ k := fun e => hm u (by simp [e])
    have hr : ∀ u, (k, u) ∉ rest := fun x hx => hm x (List.mem_cons_of_mem _ hx)
    unfold Memory.insert
    split
    · next h =>
      simp only [Memory.wfFrom, Bool.and_eq_true, decide_eq_true_eq, bne_iff_ne]
      exact ⟨⟨⟨hl, hk⟩, hv⟩, ⟨⟨by omega, w.1.1.2⟩, by simpa using w.1.2⟩, w.2⟩
    · next h =>
      simp only [Memory.wfFrom, Bool.and_eq_true, decide_eq_true_eq]
      exact ⟨w.1, ih w.2 (by omega) hr⟩

/-- A write keeps the canonical form. -/
theorem Memory.wf_write {m : Memory} (a : Addr) (v : Byte) (w : m.wf = true) : (m.write a v).wf = true := by
  unfold Memory.wf at w ⊢
  unfold Memory.write
  split
  · exact Memory.wfFrom_erase _ w
  · next h =>
    exact Memory.wfFrom_insert (Memory.wfFrom_erase _ w) (Nat.zero_le _) a.isLt h (Memory.not_mem_erase m _)

/-- Loading bytes keeps the canonical form. -/
theorem Memory.wf_load {m : Memory} (a : Addr) (bytes : List Byte) (w : m.wf = true) : (m.load a bytes).wf = true := by
  induction bytes generalizing m a with
  | nil => exact w
  | cons v rest ih => exact ih _ (Memory.wf_write a v w)

/-- The empty memory is in canonical form. -/
theorem Memory.wf_nil : Memory.wf [] = true := rfl

/-- Three bytes loaded at an address, read back. -/
theorem Memory.read_load_three (m : Memory) (a : Addr) (b0 b1 b2 : Byte) :
    (m.load a [b0, b1, b2]).read a = b0 ∧ (m.load a [b0, b1, b2]).read (a + 1#16) = b1 ∧
      (m.load a [b0, b1, b2]).read (a + 2#16) = b2 := by
  have h1 : a ≠ a + 1#16 := by bv_omega
  have h2 : a ≠ a + 1#16 + 1#16 := by bv_omega
  have h3 : a + 1#16 ≠ a + 1#16 + 1#16 := by bv_omega
  have e : a + 2#16 = a + 1#16 + 1#16 := by bv_omega
  simp only [Memory.load]
  refine ⟨?_, ?_, ?_⟩
  · rw [Memory.read_write_other _ _ h2, Memory.read_write_other _ _ h1, Memory.read_write_same]
  · rw [Memory.read_write_other _ _ h3, Memory.read_write_same]
  · rw [e, Memory.read_write_same]

end Sys2Proof.Machine
end

