-- ==== Sys2Proof/Laws/State.lean ====
section
/-! SUPPORT. One lemma for each field of the state under each named update, so that no proof unfolds a record update. -/

namespace Sys2Proof.Machine

@[simp] theorem State.setPc_pc (s : State) (v : Addr) : (s.setPc v).pc = v := rfl
@[simp] theorem State.setPc_a (s : State) (v : Addr) : (s.setPc v).a = s.a := rfl
@[simp] theorem State.setPc_x (s : State) (v : Addr) : (s.setPc v).x = s.x := rfl
@[simp] theorem State.setPc_y (s : State) (v : Addr) : (s.setPc v).y = s.y := rfl
@[simp] theorem State.setPc_sp (s : State) (v : Addr) : (s.setPc v).sp = s.sp := rfl
@[simp] theorem State.setPc_flags (s : State) (v : Addr) : (s.setPc v).flags = s.flags := rfl
@[simp] theorem State.setPc_run (s : State) (v : Addr) : (s.setPc v).run = s.run := rfl
@[simp] theorem State.setPc_haltStatus (s : State) (v : Addr) : (s.setPc v).haltStatus = s.haltStatus := rfl
@[simp] theorem State.setPc_monitors (s : State) (v : Addr) : (s.setPc v).monitors = s.monitors := rfl
@[simp] theorem State.setPc_bus (s : State) (v : Addr) : (s.setPc v).bus = s.bus := rfl
@[simp] theorem State.setPc_mem (s : State) (v : Addr) : (s.setPc v).mem = s.mem := rfl
@[simp] theorem State.setPc_dbg (s : State) (v : Addr) : (s.setPc v).dbg = s.dbg := rfl
@[simp] theorem State.setPc_commands (s : State) (v : Addr) : (s.setPc v).commands = s.commands := rfl
@[simp] theorem State.setPc_agenda (s : State) (v : Addr) : (s.setPc v).agenda = s.agenda := rfl
@[simp] theorem State.setPc_trace (s : State) (v : Addr) : (s.setPc v).trace = s.trace := rfl
@[simp] theorem State.setPc_params (s : State) (v : Addr) : (s.setPc v).params = s.params := rfl

@[simp] theorem State.setA_pc (s : State) (v : Byte) : (s.setA v).pc = s.pc := rfl
@[simp] theorem State.setA_a (s : State) (v : Byte) : (s.setA v).a = v := rfl
@[simp] theorem State.setA_x (s : State) (v : Byte) : (s.setA v).x = s.x := rfl
@[simp] theorem State.setA_y (s : State) (v : Byte) : (s.setA v).y = s.y := rfl
@[simp] theorem State.setA_sp (s : State) (v : Byte) : (s.setA v).sp = s.sp := rfl
@[simp] theorem State.setA_flags (s : State) (v : Byte) : (s.setA v).flags = s.flags := rfl
@[simp] theorem State.setA_run (s : State) (v : Byte) : (s.setA v).run = s.run := rfl
@[simp] theorem State.setA_haltStatus (s : State) (v : Byte) : (s.setA v).haltStatus = s.haltStatus := rfl
@[simp] theorem State.setA_monitors (s : State) (v : Byte) : (s.setA v).monitors = s.monitors := rfl
@[simp] theorem State.setA_bus (s : State) (v : Byte) : (s.setA v).bus = s.bus := rfl
@[simp] theorem State.setA_mem (s : State) (v : Byte) : (s.setA v).mem = s.mem := rfl
@[simp] theorem State.setA_dbg (s : State) (v : Byte) : (s.setA v).dbg = s.dbg := rfl
@[simp] theorem State.setA_commands (s : State) (v : Byte) : (s.setA v).commands = s.commands := rfl
@[simp] theorem State.setA_agenda (s : State) (v : Byte) : (s.setA v).agenda = s.agenda := rfl
@[simp] theorem State.setA_trace (s : State) (v : Byte) : (s.setA v).trace = s.trace := rfl
@[simp] theorem State.setA_params (s : State) (v : Byte) : (s.setA v).params = s.params := rfl

@[simp] theorem State.setX_pc (s : State) (v : Byte) : (s.setX v).pc = s.pc := rfl
@[simp] theorem State.setX_a (s : State) (v : Byte) : (s.setX v).a = s.a := rfl
@[simp] theorem State.setX_x (s : State) (v : Byte) : (s.setX v).x = v := rfl
@[simp] theorem State.setX_y (s : State) (v : Byte) : (s.setX v).y = s.y := rfl
@[simp] theorem State.setX_sp (s : State) (v : Byte) : (s.setX v).sp = s.sp := rfl
@[simp] theorem State.setX_flags (s : State) (v : Byte) : (s.setX v).flags = s.flags := rfl
@[simp] theorem State.setX_run (s : State) (v : Byte) : (s.setX v).run = s.run := rfl
@[simp] theorem State.setX_haltStatus (s : State) (v : Byte) : (s.setX v).haltStatus = s.haltStatus := rfl
@[simp] theorem State.setX_monitors (s : State) (v : Byte) : (s.setX v).monitors = s.monitors := rfl
@[simp] theorem State.setX_bus (s : State) (v : Byte) : (s.setX v).bus = s.bus := rfl
@[simp] theorem State.setX_mem (s : State) (v : Byte) : (s.setX v).mem = s.mem := rfl
@[simp] theorem State.setX_dbg (s : State) (v : Byte) : (s.setX v).dbg = s.dbg := rfl
@[simp] theorem State.setX_commands (s : State) (v : Byte) : (s.setX v).commands = s.commands := rfl
@[simp] theorem State.setX_agenda (s : State) (v : Byte) : (s.setX v).agenda = s.agenda := rfl
@[simp] theorem State.setX_trace (s : State) (v : Byte) : (s.setX v).trace = s.trace := rfl
@[simp] theorem State.setX_params (s : State) (v : Byte) : (s.setX v).params = s.params := rfl

@[simp] theorem State.setY_pc (s : State) (v : Byte) : (s.setY v).pc = s.pc := rfl
@[simp] theorem State.setY_a (s : State) (v : Byte) : (s.setY v).a = s.a := rfl
@[simp] theorem State.setY_x (s : State) (v : Byte) : (s.setY v).x = s.x := rfl
@[simp] theorem State.setY_y (s : State) (v : Byte) : (s.setY v).y = v := rfl
@[simp] theorem State.setY_sp (s : State) (v : Byte) : (s.setY v).sp = s.sp := rfl
@[simp] theorem State.setY_flags (s : State) (v : Byte) : (s.setY v).flags = s.flags := rfl
@[simp] theorem State.setY_run (s : State) (v : Byte) : (s.setY v).run = s.run := rfl
@[simp] theorem State.setY_haltStatus (s : State) (v : Byte) : (s.setY v).haltStatus = s.haltStatus := rfl
@[simp] theorem State.setY_monitors (s : State) (v : Byte) : (s.setY v).monitors = s.monitors := rfl
@[simp] theorem State.setY_bus (s : State) (v : Byte) : (s.setY v).bus = s.bus := rfl
@[simp] theorem State.setY_mem (s : State) (v : Byte) : (s.setY v).mem = s.mem := rfl
@[simp] theorem State.setY_dbg (s : State) (v : Byte) : (s.setY v).dbg = s.dbg := rfl
@[simp] theorem State.setY_commands (s : State) (v : Byte) : (s.setY v).commands = s.commands := rfl
@[simp] theorem State.setY_agenda (s : State) (v : Byte) : (s.setY v).agenda = s.agenda := rfl
@[simp] theorem State.setY_trace (s : State) (v : Byte) : (s.setY v).trace = s.trace := rfl
@[simp] theorem State.setY_params (s : State) (v : Byte) : (s.setY v).params = s.params := rfl

@[simp] theorem State.setSp_pc (s : State) (v : Byte) : (s.setSp v).pc = s.pc := rfl
@[simp] theorem State.setSp_a (s : State) (v : Byte) : (s.setSp v).a = s.a := rfl
@[simp] theorem State.setSp_x (s : State) (v : Byte) : (s.setSp v).x = s.x := rfl
@[simp] theorem State.setSp_y (s : State) (v : Byte) : (s.setSp v).y = s.y := rfl
@[simp] theorem State.setSp_sp (s : State) (v : Byte) : (s.setSp v).sp = v := rfl
@[simp] theorem State.setSp_flags (s : State) (v : Byte) : (s.setSp v).flags = s.flags := rfl
@[simp] theorem State.setSp_run (s : State) (v : Byte) : (s.setSp v).run = s.run := rfl
@[simp] theorem State.setSp_haltStatus (s : State) (v : Byte) : (s.setSp v).haltStatus = s.haltStatus := rfl
@[simp] theorem State.setSp_monitors (s : State) (v : Byte) : (s.setSp v).monitors = s.monitors := rfl
@[simp] theorem State.setSp_bus (s : State) (v : Byte) : (s.setSp v).bus = s.bus := rfl
@[simp] theorem State.setSp_mem (s : State) (v : Byte) : (s.setSp v).mem = s.mem := rfl
@[simp] theorem State.setSp_dbg (s : State) (v : Byte) : (s.setSp v).dbg = s.dbg := rfl
@[simp] theorem State.setSp_commands (s : State) (v : Byte) : (s.setSp v).commands = s.commands := rfl
@[simp] theorem State.setSp_agenda (s : State) (v : Byte) : (s.setSp v).agenda = s.agenda := rfl
@[simp] theorem State.setSp_trace (s : State) (v : Byte) : (s.setSp v).trace = s.trace := rfl
@[simp] theorem State.setSp_params (s : State) (v : Byte) : (s.setSp v).params = s.params := rfl

@[simp] theorem State.setFlags_pc (s : State) (f : Flags) : (s.setFlags f).pc = s.pc := rfl
@[simp] theorem State.setFlags_a (s : State) (f : Flags) : (s.setFlags f).a = s.a := rfl
@[simp] theorem State.setFlags_x (s : State) (f : Flags) : (s.setFlags f).x = s.x := rfl
@[simp] theorem State.setFlags_y (s : State) (f : Flags) : (s.setFlags f).y = s.y := rfl
@[simp] theorem State.setFlags_sp (s : State) (f : Flags) : (s.setFlags f).sp = s.sp := rfl
@[simp] theorem State.setFlags_flags (s : State) (f : Flags) : (s.setFlags f).flags = f := rfl
@[simp] theorem State.setFlags_run (s : State) (f : Flags) : (s.setFlags f).run = s.run := rfl
@[simp] theorem State.setFlags_haltStatus (s : State) (f : Flags) : (s.setFlags f).haltStatus = s.haltStatus := rfl
@[simp] theorem State.setFlags_monitors (s : State) (f : Flags) : (s.setFlags f).monitors = s.monitors := rfl
@[simp] theorem State.setFlags_bus (s : State) (f : Flags) : (s.setFlags f).bus = s.bus := rfl
@[simp] theorem State.setFlags_mem (s : State) (f : Flags) : (s.setFlags f).mem = s.mem := rfl
@[simp] theorem State.setFlags_dbg (s : State) (f : Flags) : (s.setFlags f).dbg = s.dbg := rfl
@[simp] theorem State.setFlags_commands (s : State) (f : Flags) : (s.setFlags f).commands = s.commands := rfl
@[simp] theorem State.setFlags_agenda (s : State) (f : Flags) : (s.setFlags f).agenda = s.agenda := rfl
@[simp] theorem State.setFlags_trace (s : State) (f : Flags) : (s.setFlags f).trace = s.trace := rfl
@[simp] theorem State.setFlags_params (s : State) (f : Flags) : (s.setFlags f).params = s.params := rfl

@[simp] theorem State.setNZ_pc (s : State) (v : Byte) : (s.setNZ v).pc = s.pc := rfl
@[simp] theorem State.setNZ_a (s : State) (v : Byte) : (s.setNZ v).a = s.a := rfl
@[simp] theorem State.setNZ_x (s : State) (v : Byte) : (s.setNZ v).x = s.x := rfl
@[simp] theorem State.setNZ_y (s : State) (v : Byte) : (s.setNZ v).y = s.y := rfl
@[simp] theorem State.setNZ_sp (s : State) (v : Byte) : (s.setNZ v).sp = s.sp := rfl
@[simp] theorem State.setNZ_flags (s : State) (v : Byte) : (s.setNZ v).flags = s.flags.setNZ v := rfl
@[simp] theorem State.setNZ_run (s : State) (v : Byte) : (s.setNZ v).run = s.run := rfl
@[simp] theorem State.setNZ_haltStatus (s : State) (v : Byte) : (s.setNZ v).haltStatus = s.haltStatus := rfl
@[simp] theorem State.setNZ_monitors (s : State) (v : Byte) : (s.setNZ v).monitors = s.monitors := rfl
@[simp] theorem State.setNZ_bus (s : State) (v : Byte) : (s.setNZ v).bus = s.bus := rfl
@[simp] theorem State.setNZ_mem (s : State) (v : Byte) : (s.setNZ v).mem = s.mem := rfl
@[simp] theorem State.setNZ_dbg (s : State) (v : Byte) : (s.setNZ v).dbg = s.dbg := rfl
@[simp] theorem State.setNZ_commands (s : State) (v : Byte) : (s.setNZ v).commands = s.commands := rfl
@[simp] theorem State.setNZ_agenda (s : State) (v : Byte) : (s.setNZ v).agenda = s.agenda := rfl
@[simp] theorem State.setNZ_trace (s : State) (v : Byte) : (s.setNZ v).trace = s.trace := rfl
@[simp] theorem State.setNZ_params (s : State) (v : Byte) : (s.setNZ v).params = s.params := rfl

@[simp] theorem State.setC_pc (s : State) (c : Bool) : (s.setC c).pc = s.pc := rfl
@[simp] theorem State.setC_a (s : State) (c : Bool) : (s.setC c).a = s.a := rfl
@[simp] theorem State.setC_x (s : State) (c : Bool) : (s.setC c).x = s.x := rfl
@[simp] theorem State.setC_y (s : State) (c : Bool) : (s.setC c).y = s.y := rfl
@[simp] theorem State.setC_sp (s : State) (c : Bool) : (s.setC c).sp = s.sp := rfl
@[simp] theorem State.setC_flags (s : State) (c : Bool) : (s.setC c).flags = { s.flags with c := c } := rfl
@[simp] theorem State.setC_run (s : State) (c : Bool) : (s.setC c).run = s.run := rfl
@[simp] theorem State.setC_haltStatus (s : State) (c : Bool) : (s.setC c).haltStatus = s.haltStatus := rfl
@[simp] theorem State.setC_monitors (s : State) (c : Bool) : (s.setC c).monitors = s.monitors := rfl
@[simp] theorem State.setC_bus (s : State) (c : Bool) : (s.setC c).bus = s.bus := rfl
@[simp] theorem State.setC_mem (s : State) (c : Bool) : (s.setC c).mem = s.mem := rfl
@[simp] theorem State.setC_dbg (s : State) (c : Bool) : (s.setC c).dbg = s.dbg := rfl
@[simp] theorem State.setC_commands (s : State) (c : Bool) : (s.setC c).commands = s.commands := rfl
@[simp] theorem State.setC_agenda (s : State) (c : Bool) : (s.setC c).agenda = s.agenda := rfl
@[simp] theorem State.setC_trace (s : State) (c : Bool) : (s.setC c).trace = s.trace := rfl
@[simp] theorem State.setC_params (s : State) (c : Bool) : (s.setC c).params = s.params := rfl

@[simp] theorem State.setBus_pc (s : State) (b : List Binding) : (s.setBus b).pc = s.pc := rfl
@[simp] theorem State.setBus_a (s : State) (b : List Binding) : (s.setBus b).a = s.a := rfl
@[simp] theorem State.setBus_x (s : State) (b : List Binding) : (s.setBus b).x = s.x := rfl
@[simp] theorem State.setBus_y (s : State) (b : List Binding) : (s.setBus b).y = s.y := rfl
@[simp] theorem State.setBus_sp (s : State) (b : List Binding) : (s.setBus b).sp = s.sp := rfl
@[simp] theorem State.setBus_flags (s : State) (b : List Binding) : (s.setBus b).flags = s.flags := rfl
@[simp] theorem State.setBus_run (s : State) (b : List Binding) : (s.setBus b).run = s.run := rfl
@[simp] theorem State.setBus_haltStatus (s : State) (b : List Binding) : (s.setBus b).haltStatus = s.haltStatus := rfl
@[simp] theorem State.setBus_monitors (s : State) (b : List Binding) : (s.setBus b).monitors = s.monitors := rfl
@[simp] theorem State.setBus_bus (s : State) (b : List Binding) : (s.setBus b).bus = b := rfl
@[simp] theorem State.setBus_mem (s : State) (b : List Binding) : (s.setBus b).mem = s.mem := rfl
@[simp] theorem State.setBus_dbg (s : State) (b : List Binding) : (s.setBus b).dbg = s.dbg := rfl
@[simp] theorem State.setBus_commands (s : State) (b : List Binding) : (s.setBus b).commands = s.commands := rfl
@[simp] theorem State.setBus_agenda (s : State) (b : List Binding) : (s.setBus b).agenda = s.agenda := rfl
@[simp] theorem State.setBus_trace (s : State) (b : List Binding) : (s.setBus b).trace = s.trace := rfl
@[simp] theorem State.setBus_params (s : State) (b : List Binding) : (s.setBus b).params = s.params := rfl

@[simp] theorem State.setMem_pc (s : State) (m : Memory) : (s.setMem m).pc = s.pc := rfl
@[simp] theorem State.setMem_a (s : State) (m : Memory) : (s.setMem m).a = s.a := rfl
@[simp] theorem State.setMem_x (s : State) (m : Memory) : (s.setMem m).x = s.x := rfl
@[simp] theorem State.setMem_y (s : State) (m : Memory) : (s.setMem m).y = s.y := rfl
@[simp] theorem State.setMem_sp (s : State) (m : Memory) : (s.setMem m).sp = s.sp := rfl
@[simp] theorem State.setMem_flags (s : State) (m : Memory) : (s.setMem m).flags = s.flags := rfl
@[simp] theorem State.setMem_run (s : State) (m : Memory) : (s.setMem m).run = s.run := rfl
@[simp] theorem State.setMem_haltStatus (s : State) (m : Memory) : (s.setMem m).haltStatus = s.haltStatus := rfl
@[simp] theorem State.setMem_monitors (s : State) (m : Memory) : (s.setMem m).monitors = s.monitors := rfl
@[simp] theorem State.setMem_bus (s : State) (m : Memory) : (s.setMem m).bus = s.bus := rfl
@[simp] theorem State.setMem_mem (s : State) (m : Memory) : (s.setMem m).mem = m := rfl
@[simp] theorem State.setMem_dbg (s : State) (m : Memory) : (s.setMem m).dbg = s.dbg := rfl
@[simp] theorem State.setMem_commands (s : State) (m : Memory) : (s.setMem m).commands = s.commands := rfl
@[simp] theorem State.setMem_agenda (s : State) (m : Memory) : (s.setMem m).agenda = s.agenda := rfl
@[simp] theorem State.setMem_trace (s : State) (m : Memory) : (s.setMem m).trace = s.trace := rfl
@[simp] theorem State.setMem_params (s : State) (m : Memory) : (s.setMem m).params = s.params := rfl

@[simp] theorem State.setRun_pc (s : State) (r : RunState) : (s.setRun r).pc = s.pc := rfl
@[simp] theorem State.setRun_a (s : State) (r : RunState) : (s.setRun r).a = s.a := rfl
@[simp] theorem State.setRun_x (s : State) (r : RunState) : (s.setRun r).x = s.x := rfl
@[simp] theorem State.setRun_y (s : State) (r : RunState) : (s.setRun r).y = s.y := rfl
@[simp] theorem State.setRun_sp (s : State) (r : RunState) : (s.setRun r).sp = s.sp := rfl
@[simp] theorem State.setRun_flags (s : State) (r : RunState) : (s.setRun r).flags = s.flags := rfl
@[simp] theorem State.setRun_run (s : State) (r : RunState) : (s.setRun r).run = r := rfl
@[simp] theorem State.setRun_haltStatus (s : State) (r : RunState) : (s.setRun r).haltStatus = s.haltStatus := rfl
@[simp] theorem State.setRun_monitors (s : State) (r : RunState) : (s.setRun r).monitors = s.monitors := rfl
@[simp] theorem State.setRun_bus (s : State) (r : RunState) : (s.setRun r).bus = s.bus := rfl
@[simp] theorem State.setRun_mem (s : State) (r : RunState) : (s.setRun r).mem = s.mem := rfl
@[simp] theorem State.setRun_dbg (s : State) (r : RunState) : (s.setRun r).dbg = s.dbg := rfl
@[simp] theorem State.setRun_commands (s : State) (r : RunState) : (s.setRun r).commands = s.commands := rfl
@[simp] theorem State.setRun_agenda (s : State) (r : RunState) : (s.setRun r).agenda = s.agenda := rfl
@[simp] theorem State.setRun_trace (s : State) (r : RunState) : (s.setRun r).trace = s.trace := rfl
@[simp] theorem State.setRun_params (s : State) (r : RunState) : (s.setRun r).params = s.params := rfl

@[simp] theorem State.setDbg_pc (s : State) (d : Dbg) : (s.setDbg d).pc = s.pc := rfl
@[simp] theorem State.setDbg_a (s : State) (d : Dbg) : (s.setDbg d).a = s.a := rfl
@[simp] theorem State.setDbg_x (s : State) (d : Dbg) : (s.setDbg d).x = s.x := rfl
@[simp] theorem State.setDbg_y (s : State) (d : Dbg) : (s.setDbg d).y = s.y := rfl
@[simp] theorem State.setDbg_sp (s : State) (d : Dbg) : (s.setDbg d).sp = s.sp := rfl
@[simp] theorem State.setDbg_flags (s : State) (d : Dbg) : (s.setDbg d).flags = s.flags := rfl
@[simp] theorem State.setDbg_run (s : State) (d : Dbg) : (s.setDbg d).run = s.run := rfl
@[simp] theorem State.setDbg_haltStatus (s : State) (d : Dbg) : (s.setDbg d).haltStatus = s.haltStatus := rfl
@[simp] theorem State.setDbg_monitors (s : State) (d : Dbg) : (s.setDbg d).monitors = s.monitors := rfl
@[simp] theorem State.setDbg_bus (s : State) (d : Dbg) : (s.setDbg d).bus = s.bus := rfl
@[simp] theorem State.setDbg_mem (s : State) (d : Dbg) : (s.setDbg d).mem = s.mem := rfl
@[simp] theorem State.setDbg_dbg (s : State) (d : Dbg) : (s.setDbg d).dbg = d := rfl
@[simp] theorem State.setDbg_commands (s : State) (d : Dbg) : (s.setDbg d).commands = s.commands := rfl
@[simp] theorem State.setDbg_agenda (s : State) (d : Dbg) : (s.setDbg d).agenda = s.agenda := rfl
@[simp] theorem State.setDbg_trace (s : State) (d : Dbg) : (s.setDbg d).trace = s.trace := rfl
@[simp] theorem State.setDbg_params (s : State) (d : Dbg) : (s.setDbg d).params = s.params := rfl

@[simp] theorem State.emit_pc (s : State) (o : Output) : (s.emit o).pc = s.pc := rfl
@[simp] theorem State.emit_a (s : State) (o : Output) : (s.emit o).a = s.a := rfl
@[simp] theorem State.emit_x (s : State) (o : Output) : (s.emit o).x = s.x := rfl
@[simp] theorem State.emit_y (s : State) (o : Output) : (s.emit o).y = s.y := rfl
@[simp] theorem State.emit_sp (s : State) (o : Output) : (s.emit o).sp = s.sp := rfl
@[simp] theorem State.emit_flags (s : State) (o : Output) : (s.emit o).flags = s.flags := rfl
@[simp] theorem State.emit_run (s : State) (o : Output) : (s.emit o).run = s.run := rfl
@[simp] theorem State.emit_haltStatus (s : State) (o : Output) : (s.emit o).haltStatus = s.haltStatus := rfl
@[simp] theorem State.emit_monitors (s : State) (o : Output) : (s.emit o).monitors = s.monitors := rfl
@[simp] theorem State.emit_bus (s : State) (o : Output) : (s.emit o).bus = s.bus := rfl
@[simp] theorem State.emit_mem (s : State) (o : Output) : (s.emit o).mem = s.mem := rfl
@[simp] theorem State.emit_dbg (s : State) (o : Output) : (s.emit o).dbg = s.dbg := rfl
@[simp] theorem State.emit_commands (s : State) (o : Output) : (s.emit o).commands = s.commands := rfl
@[simp] theorem State.emit_agenda (s : State) (o : Output) : (s.emit o).agenda = s.agenda := rfl
@[simp] theorem State.emit_trace (s : State) (o : Output) : (s.emit o).trace = s.trace ++ [o] := rfl
@[simp] theorem State.emit_params (s : State) (o : Output) : (s.emit o).params = s.params := rfl

@[simp] theorem State.setPc_setPc (s : State) (v v' : Addr) : (s.setPc v).setPc v' = s.setPc v' := rfl
@[simp] theorem State.setA_setA (s : State) (v v' : Byte) : (s.setA v).setA v' = s.setA v' := rfl
@[simp] theorem State.setX_setX (s : State) (v v' : Byte) : (s.setX v).setX v' = s.setX v' := rfl
@[simp] theorem State.setY_setY (s : State) (v v' : Byte) : (s.setY v).setY v' = s.setY v' := rfl
@[simp] theorem State.setSp_setSp (s : State) (v v' : Byte) : (s.setSp v).setSp v' = s.setSp v' := rfl
@[simp] theorem State.setFlags_setFlags (s : State) (f f' : Flags) : (s.setFlags f).setFlags f' = s.setFlags f' := rfl
@[simp] theorem State.setBus_setBus (s : State) (b b' : List Binding) : (s.setBus b).setBus b' = s.setBus b' := rfl
@[simp] theorem State.setMem_setMem (s : State) (m m' : Memory) : (s.setMem m).setMem m' = s.setMem m' := rfl
@[simp] theorem State.setRun_setRun (s : State) (r r' : RunState) : (s.setRun r).setRun r' = s.setRun r' := rfl
@[simp] theorem State.setDbg_setDbg (s : State) (d d' : Dbg) : (s.setDbg d).setDbg d' = s.setDbg d' := rfl

end Sys2Proof.Machine
end

