-- ==== Sys2Proof/Laws/Bus.lean ====
section
/-! SUPPORT. The laws of sequencing and of the bus: what one transaction can do, said once. -/

namespace Sys2Proof.Machine

open Sys2Proof

@[simp] theorem Res.bind_ok {α β : Type} (v : α) (s : State) (k : α → State → Res β) : (Res.ok v s).bind k = k v s := rfl

@[simp] theorem Res.bind_fault {α β : Type} (e : BusError) (s : State) (k : α → State → Res β) :
    (Res.fault e s).bind k = .fault e s := rfl

@[simp] theorem Res.map_ok {α β : Type} (f : α → β) (v : α) (s : State) : (Res.ok v s).map f = .ok (f v) s := rfl

@[simp] theorem Res.map_fault {α β : Type} (f : α → β) (e : BusError) (s : State) :
    (Res.fault e s : Res α).map f = .fault e s := rfl

/-- A sequence completes when both parts do. -/
theorem Res.bind_eq_ok {α β : Type} {r : Res α} {k : α → State → Res β} {v : β} {t : State} :
    r.bind k = .ok v t ↔ ∃ a s, r = .ok a s ∧ k a s = .ok v t := by
  cases r <;> simp [Res.bind]

theorem Res.map_eq_ok {α β : Type} {r : Res α} {f : α → β} {v : β} {t : State} :
    r.map f = .ok v t ↔ ∃ a, r = .ok a t ∧ f a = v := by
  cases r <;> simp [Res.map, Res.bind, and_comm]

/-- The range test on a layout entry. -/
def layoutContains (e : String × Addr × Nat × DeviceKind) (a : Addr) : Bool :=
  decide (e.2.1.toNat ≤ a.toNat) && decide (a.toNat < e.2.1.toNat + e.2.2.1)

theorem Binding.layoutContains_layout (b : Binding) (a : Addr) : layoutContains b.layout a = b.contains a := rfl

/-- Which layout an address finds depends on the layout of the table alone. -/
theorem findBinding_layout (bus : List Binding) (a : Addr) :
    (findBinding bus a).map Binding.layout = (busLayout bus).find? fun e => layoutContains e a := by
  induction bus with
  | nil => rfl
  | cons b rest ih =>
    unfold findBinding at ih ⊢
    cases h : b.contains a
    · simp [busLayout, h, Binding.layoutContains_layout] at ih ⊢
      exact ih
    · simp [busLayout, h, Binding.layoutContains_layout]

theorem kindAt_eq_of_layout {s t : State} (h : busLayout t.bus = busLayout s.bus) (a : Addr) : kindAt t a = kindAt s a := by
  have e : ∀ bus : List Binding, (findBinding bus a).map (fun b => b.device.kind) =
      ((findBinding bus a).map Binding.layout).map fun l => l.2.2.2 := by
    intro bus; cases findBinding bus a <;> rfl
  unfold kindAt
  rw [e, e, findBinding_layout, findBinding_layout, h]

theorem mapped_eq_of_layout {s t : State} (h : busLayout t.bus = busLayout s.bus) (a : Addr) : mapped t a = mapped s a := by
  have e : ∀ u : State, mapped u a = (kindAt u a).isSome := by
    intro u; unfold mapped kindAt; cases findBinding u.bus a <;> rfl
  rw [e, e, kindAt_eq_of_layout h]

/-- The interval tests depend on the layout of the table alone. -/
theorem busDisjoint_eq_of_layout {b c : List Binding} (h : busLayout b = busLayout c) : busDisjoint b = busDisjoint c := by
  induction b generalizing c with
  | nil => cases c with
    | nil => rfl
    | cons y ys => simp [busLayout] at h
  | cons x xs ih => cases c with
    | nil => simp [busLayout] at h
    | cons y ys =>
      simp only [busLayout, List.map_cons, List.cons.injEq] at h
      have hx : x.base = y.base ∧ x.size = y.size := by
        have := h.1
        simp only [Binding.layout, Prod.mk.injEq] at this
        exact ⟨this.2.1, this.2.2.1⟩
      have key : ∀ {us vs : List Binding}, us.map Binding.layout = vs.map Binding.layout →
          us.all (fun c => !x.overlaps c) = vs.all fun c => !y.overlaps c := by
        intro us
        induction us with
        | nil => intro vs e; cases vs with
          | nil => rfl
          | cons _ _ => simp at e
        | cons u us ihu => intro vs e; cases vs with
          | nil => simp at e
          | cons v vs =>
            simp only [List.map_cons, List.cons.injEq, Binding.layout, Prod.mk.injEq] at e
            have o : x.overlaps u = y.overlaps v := by simp only [Binding.overlaps, hx.1, hx.2, e.1.2.1, e.1.2.2.1]
            simp only [List.all_cons, o, ihu e.2]
      simp only [busDisjoint, key h.2, ih h.2]

theorem busInRange_eq_of_layout {b c : List Binding} (h : busLayout b = busLayout c) : busInRange b = busInRange c := by
  have e : ∀ u : List Binding, busInRange u = (busLayout u).all fun l => decide (l.2.1.toNat + l.2.2.1 ≤ 0x10000) := by
    intro u; induction u with
    | nil => rfl
    | cons x xs ih =>
      simp only [busInRange, busLayout, List.all_cons, List.map_cons, List.all_map] at ih ⊢
      rw [ih]; rfl
  rw [e, e, h]

/-- Putting a device of the same kind and size at an address leaves the layout of the table. -/
theorem busLayout_replaceDevice {bus : List Binding} {a : Addr} {b : Binding} {d : Device}
    (hf : findBinding bus a = some b) (hk : d.kind = b.device.kind) (hs : d.size = b.device.size) :
    busLayout (replaceDevice a d bus) = busLayout bus := by
  induction bus with
  | nil => rfl
  | cons c rest ih =>
    unfold findBinding at hf ih
    cases h : c.contains a
    · simp [h] at hf
      simp only [replaceDevice, h, Bool.false_eq_true, if_false, busLayout, List.map_cons] at ih ⊢
      rw [ih hf]
    · simp [h] at hf
      subst hf
      simp [replaceDevice, h, busLayout, Binding.layout, Binding.size, hk, hs]

/-- The binding an address finds after its device was replaced. -/
theorem findBinding_replaceDevice {bus : List Binding} {a : Addr} {b : Binding} {d : Device}
    (hf : findBinding bus a = some b) (hs : d.size = b.device.size) :
    findBinding (replaceDevice a d bus) a = some { b with device := d } := by
  induction bus with
  | nil => simp [findBinding] at hf
  | cons c rest ih =>
    unfold findBinding at hf ih ⊢
    cases h : c.contains a
    · simp [h] at hf
      simp [replaceDevice, h, ih hf]
    · simp [h] at hf
      subst hf
      have h' : Binding.contains { c with device := d } a = true := by
        have := h
        simp only [Binding.contains, Binding.size, hs] at this ⊢
        exact this
      simp [replaceDevice, h, h']

/-- What a completed bus read can do: it finds a device; RAM and ROM give the byte and change nothing, an ACIA gives
its answer and is left in its new state, an SPI port gives its byte and changes nothing, a bridge is accessed. -/
theorem busRead_ok {a : Addr} {s t : State} {v : Byte} (h : busRead a s = .ok v t) :
    ∃ b, findBinding s.bus a = some b ∧
      ((∃ n, (b.device = .ram n ∨ b.device = .rom n) ∧ v = s.mem.read a ∧ t = s) ∨
       (∃ d, b.device = .acia d ∧ v = (d.read s.params (b.aciaRegister a)).1 ∧
          t = s.setBus (replaceDevice a (.acia (d.read s.params (b.aciaRegister a)).2) s.bus)) ∨
       (∃ p, b.device = .spi p ∧ v = p.readPort s.params ∧ t = s) ∨
       (∃ g, b.device = .bridge g ∧ v = (g.access s.params (a.toNat - b.base.toNat) none).1 ∧
          t = s.setBus (replaceDevice a (.bridge (g.access s.params (a.toNat - b.base.toNat) none).2) s.bus))) := by
  unfold busRead at h
  split at h
  · simp at h
  · next b hb =>
    refine ⟨b, hb, ?_⟩
    split at h
    · next n hn => simp at h; exact .inl ⟨n, .inl hn, h.1.symm, h.2.symm⟩
    · next n hn => simp at h; exact .inl ⟨n, .inr hn, h.1.symm, h.2.symm⟩
    · next d hd => simp at h; exact .inr (.inl ⟨d, hd, h.1.symm, h.2.symm⟩)
    · next p hp => simp at h; exact .inr (.inr (.inl ⟨p, hp, h.1.symm, h.2.symm⟩))
    · next g hg => simp at h; exact .inr (.inr (.inr ⟨g, hg, h.1.symm, h.2.symm⟩))

/-- What a completed bus write can do: RAM takes the byte, ROM ignores it, an ACIA, an SPI slave or a bridge is left
in its new state. -/
theorem busWrite_ok {a : Addr} {v : Byte} {s t : State} (h : busWrite a v s = .ok () t) :
    ∃ b, findBinding s.bus a = some b ∧
      ((∃ n, b.device = .ram n ∧ t = s.setMem (s.mem.write a v)) ∨
       (∃ n, b.device = .rom n ∧ s.params.romWrite = .ignore ∧ t = s) ∨
       (∃ d, b.device = .acia d ∧
          t = s.setBus (replaceDevice a (.acia (d.write s.params v (b.aciaRegister a))) s.bus)) ∨
       (∃ p, b.device = .spi p ∧ t = s.setBus (replaceDevice a (.spi (p.write s.params v).2) s.bus)) ∨
       (∃ g, b.device = .bridge g ∧ t = s.setBus
          (replaceDevice a (.bridge (g.access s.params (a.toNat - b.base.toNat) (some v)).2) s.bus))) := by
  unfold busWrite at h
  split at h
  · simp at h
  · next b hb =>
    refine ⟨b, hb, ?_⟩
    split at h
    · next n hn => simp at h; exact .inl ⟨n, hn, h.symm⟩
    · next n hn =>
      split at h
      · simp at h
      · next hr => simp at h; exact .inr (.inl ⟨n, hn, hr, h.symm⟩)
    · next d hd => simp at h; exact .inr (.inr (.inl ⟨d, hd, h.symm⟩))
    · next p hp => simp at h; exact .inr (.inr (.inr (.inl ⟨p, hp, h.symm⟩)))
    · next g hg => simp at h; exact .inr (.inr (.inr (.inr ⟨g, hg, h.symm⟩)))

/-- A read of a RAM or ROM address: the byte, and nothing changes. -/
theorem busRead_storage {a : Addr} {s : State} (h : kindAt s a = some .ram ∨ kindAt s a = some .rom) :
    busRead a s = .ok (s.mem.read a) s := by
  unfold kindAt at h
  unfold busRead
  cases hb : findBinding s.bus a with
  | none => simp [hb] at h
  | some b => cases hd : b.device <;> simp [hb, hd, Device.kind] at h ⊢

/-- A write to a RAM address: the byte is stored, and nothing else changes. -/
theorem busWrite_ram {a : Addr} {v : Byte} {s : State} (h : kindAt s a = some .ram) :
    busWrite a v s = .ok () (s.setMem (s.mem.write a v)) := by
  unfold kindAt at h
  unfold busWrite
  cases hb : findBinding s.bus a with
  | none => simp [hb] at h
  | some b => cases hd : b.device <;> simp [hb, hd, Device.kind] at h ⊢

/-- The flags play no part in a bus write. -/
theorem busWrite_setFlags (a : Addr) (v : Byte) (s : State) (f : Flags) :
    busWrite a v (s.setFlags f) =
      match busWrite a v s with
      | .ok _ t => .ok () (t.setFlags f)
      | .fault e t => .fault e (t.setFlags f) := by
  unfold busWrite
  simp only [State.setFlags_bus, State.setFlags_mem, State.setFlags_params]
  cases findBinding s.bus a with
  | none => rfl
  | some b => obtain ⟨_, _, d⟩ := b; cases d <;> cases s.params.romWrite <;> rfl

/-- The flags play no part in a bus read. -/
theorem busRead_setFlags (a : Addr) (s : State) (f : Flags) :
    busRead a (s.setFlags f) =
      match busRead a s with
      | .ok v t => .ok v (t.setFlags f)
      | .fault e t => .fault e (t.setFlags f) := by
  unfold busRead
  simp only [State.setFlags_bus, State.setFlags_mem, State.setFlags_params]
  cases findBinding s.bus a with
  | none => rfl
  | some b => obtain ⟨_, _, d⟩ := b; cases d <;> rfl

/-- A read completes exactly where a device is mapped. -/
theorem busRead_completes (a : Addr) (s : State) : (busRead a s).completes = mapped s a := by
  unfold busRead mapped
  cases findBinding s.bus a with
  | none => rfl
  | some b => obtain ⟨_, _, d⟩ := b; cases d <;> rfl

/-- A write completes exactly where a device is mapped that is no ROM with the fault policy. -/
theorem busWrite_completes (a : Addr) (v : Byte) (s : State) :
    (busWrite a v s).completes = (mapped s a && !(kindAt s a == some .rom && s.params.romWrite == .fault)) := by
  unfold busWrite mapped kindAt
  cases findBinding s.bus a with
  | none => rfl
  | some b => obtain ⟨_, _, d⟩ := b; cases d <;> cases s.params.romWrite <;> rfl

/-- What no instruction changes: the host's side of the state, the parameters, the layout of the bindings, the ROM
bytes; and the memory stays in canonical form. -/
structure Kept (s t : State) : Prop where
  run        : t.run = s.run
  haltStatus : t.haltStatus = s.haltStatus
  monitors   : t.monitors = s.monitors
  dbg        : t.dbg = s.dbg
  commands   : t.commands = s.commands
  agenda     : t.agenda = s.agenda
  trace      : t.trace = s.trace
  params     : t.params = s.params
  layout     : busLayout t.bus = busLayout s.bus
  canonical  : s.mem.wf = true → t.mem.wf = true
  rom        : ∀ a, kindAt s a = some .rom → t.mem.read a = s.mem.read a

theorem Kept.refl (s : State) : Kept s s := ⟨rfl, rfl, rfl, rfl, rfl, rfl, rfl, rfl, rfl, id, fun _ _ => rfl⟩

theorem Kept.trans {s t u : State} (h : Kept s t) (k : Kept t u) : Kept s u where
  run        := k.run.trans h.run
  haltStatus := k.haltStatus.trans h.haltStatus
  monitors   := k.monitors.trans h.monitors
  dbg        := k.dbg.trans h.dbg
  commands   := k.commands.trans h.commands
  agenda     := k.agenda.trans h.agenda
  trace      := k.trace.trans h.trace
  params     := k.params.trans h.params
  layout     := k.layout.trans h.layout
  canonical  := fun w => k.canonical (h.canonical w)
  rom        := fun a e => (k.rom a (by rw [kindAt_eq_of_layout h.layout, e])).trans (h.rom a e)

/-- A state with the same bus, memory and host side as another keeps what it keeps. -/
theorem Kept.same {s t : State} (h1 : t.run = s.run) (h2 : t.haltStatus = s.haltStatus) (h3 : t.monitors = s.monitors)
    (h4 : t.dbg = s.dbg) (h5 : t.commands = s.commands) (h6 : t.agenda = s.agenda) (h7 : t.trace = s.trace)
    (h8 : t.params = s.params) (h9 : t.bus = s.bus) (h10 : t.mem = s.mem) : Kept s t :=
  ⟨h1, h2, h3, h4, h5, h6, h7, h8, by rw [h9], fun w => by rw [h10]; exact w, fun _ _ => by rw [h10]⟩

theorem Kept.setPc (s : State) (v : Addr) : Kept s (s.setPc v) := .same rfl rfl rfl rfl rfl rfl rfl rfl rfl rfl
theorem Kept.setA (s : State) (v : Byte) : Kept s (s.setA v) := .same rfl rfl rfl rfl rfl rfl rfl rfl rfl rfl
theorem Kept.setX (s : State) (v : Byte) : Kept s (s.setX v) := .same rfl rfl rfl rfl rfl rfl rfl rfl rfl rfl
theorem Kept.setY (s : State) (v : Byte) : Kept s (s.setY v) := .same rfl rfl rfl rfl rfl rfl rfl rfl rfl rfl
theorem Kept.setSp (s : State) (v : Byte) : Kept s (s.setSp v) := .same rfl rfl rfl rfl rfl rfl rfl rfl rfl rfl
theorem Kept.setFlags (s : State) (f : Flags) : Kept s (s.setFlags f) := .same rfl rfl rfl rfl rfl rfl rfl rfl rfl rfl
theorem Kept.setNZ (s : State) (v : Byte) : Kept s (s.setNZ v) := .same rfl rfl rfl rfl rfl rfl rfl rfl rfl rfl
theorem Kept.setC (s : State) (c : Bool) : Kept s (s.setC c) := .same rfl rfl rfl rfl rfl rfl rfl rfl rfl rfl

/-- A device replaced by one of the same kind and size. -/
theorem Kept.setDevice {s : State} {a : Addr} {b : Binding} {d : Device} (hf : findBinding s.bus a = some b)
    (hk : d.kind = b.device.kind) (hs : d.size = b.device.size) : Kept s (s.setBus (replaceDevice a d s.bus)) where
  run        := rfl
  haltStatus := rfl
  monitors   := rfl
  dbg        := rfl
  commands   := rfl
  agenda     := rfl
  trace      := rfl
  params     := rfl
  layout     := busLayout_replaceDevice hf hk hs
  canonical  := id
  rom        := fun _ _ => rfl

theorem Kept.busRead {a : Addr} {s t : State} {v : Byte} (h : busRead a s = .ok v t) : Kept s t := by
  obtain ⟨b, hb, ⟨_, _, _, rfl⟩ | ⟨d, hd, _, rfl⟩ | ⟨_, _, _, rfl⟩ | ⟨g, hg, _, rfl⟩⟩ := busRead_ok h
  · exact .refl _
  · exact .setDevice hb (by rw [hd]; rfl) (by rw [hd]; rfl)
  · exact .refl _
  · exact .setDevice hb (by rw [hg]; rfl) (by rw [hg]; rfl)

theorem Kept.busWrite {a : Addr} {v : Byte} {s t : State} (h : busWrite a v s = .ok () t) : Kept s t := by
  obtain ⟨b, hb, ⟨n, hn, rfl⟩ | ⟨_, _, _, rfl⟩ | ⟨d, hd, rfl⟩ | ⟨p, hp, rfl⟩ | ⟨g, hg, rfl⟩⟩ := busWrite_ok h
  · refine ⟨rfl, rfl, rfl, rfl, rfl, rfl, rfl, rfl, rfl, Memory.wf_write a v, fun c hc => ?_⟩
    refine Memory.read_write_other _ _ fun e => ?_
    subst e
    simp [kindAt, hb, hn, Device.kind] at hc
  · exact .refl _
  · exact .setDevice hb (by rw [hd]; rfl) (by rw [hd]; rfl)
  · exact .setDevice hb (by rw [hp]; rfl) (by rw [hp]; rfl)
  · exact .setDevice hb (by rw [hg]; rfl) (by rw [hg]; rfl)

/-- A bus read changes no register and no flag, and no byte of memory. -/
theorem busRead_registers {a : Addr} {s t : State} {v : Byte} (h : busRead a s = .ok v t) :
    t.pc = s.pc ∧ t.a = s.a ∧ t.x = s.x ∧ t.y = s.y ∧ t.sp = s.sp ∧ t.flags = s.flags ∧ t.mem = s.mem := by
  obtain ⟨b, hb, ⟨_, _, _, rfl⟩ | ⟨d, hd, _, rfl⟩ | ⟨_, _, _, rfl⟩ | ⟨g, hg, _, rfl⟩⟩ := busRead_ok h <;> simp

/-- A bus write changes no register and no flag. -/
theorem busWrite_registers {a : Addr} {v : Byte} {s t : State} (h : busWrite a v s = .ok () t) :
    t.pc = s.pc ∧ t.a = s.a ∧ t.x = s.x ∧ t.y = s.y ∧ t.sp = s.sp ∧ t.flags = s.flags := by
  obtain ⟨b, hb, ⟨n, hn, rfl⟩ | ⟨_, _, _, rfl⟩ | ⟨d, hd, rfl⟩ | ⟨p, hp, rfl⟩ | ⟨g, hg, rfl⟩⟩ := busWrite_ok h <;> simp

/-- A bus write leaves every other byte of memory. -/
theorem busWrite_memory {a c : Addr} {v : Byte} {s t : State} (h : busWrite a v s = .ok () t) (hc : c ≠ a) :
    t.mem.read c = s.mem.read c := by
  obtain ⟨b, hb, ⟨n, hn, rfl⟩ | ⟨_, _, _, rfl⟩ | ⟨d, hd, rfl⟩ | ⟨p, hp, rfl⟩ | ⟨g, hg, rfl⟩⟩ := busWrite_ok h
  · simp [Memory.read_write_other _ _ hc]
  all_goals simp

end Sys2Proof.Machine
end

