-- ==== Sys2Proof/Laws/Ops.lean ====
section
/-! SUPPORT. What each shared operation can do, said once: the addresses it reaches, the addresses it stores to, the
registers it leaves. -/

namespace Sys2Proof.Machine

open Sys2Proof

/-- What an operation that reaches the bus addresses `acc` and stores to the addresses `stored` can do to the memory
and the devices: it keeps what `Kept` says, changes no other byte and no other device. -/
structure Effect (acc stored : List Addr) (s t : State) : Prop where
  kept    : Kept s t
  memory  : ∀ c, c ∉ stored → t.mem.read c = s.mem.read c
  devices : ∀ c, (∀ a ∈ acc, ∀ b, findBinding s.bus c = some b → b.contains a = false) →
    findBinding t.bus c = findBinding s.bus c

/-- An operation that reaches nothing. -/
theorem Effect.same {s t : State} (k : Kept s t) (hb : t.bus = s.bus) (hm : t.mem = s.mem) : Effect [] [] s t :=
  ⟨k, fun _ _ => by rw [hm], fun _ _ => by rw [hb]⟩

theorem Effect.refl (s : State) : Effect [] [] s s := .same (.refl s) rfl rfl

theorem Effect.trans {a1 a2 s1 s2 : List Addr} {s t u : State} (h : Effect a1 s1 s t) (k : Effect a2 s2 t u) :
    Effect (a1 ++ a2) (s1 ++ s2) s u where
  kept    := h.kept.trans k.kept
  memory  := fun c hc => by
    simp only [List.mem_append, not_or] at hc
    rw [k.memory c hc.2, h.memory c hc.1]
  devices := fun c hc => by
    have e := h.devices c fun a ha => hc a (by simp [ha])
    rw [k.devices c fun a ha b hb => hc a (by simp [ha]) b (by rw [← e]; exact hb), e]

theorem Effect.mono {a1 a2 s1 s2 : List Addr} {s t : State} (h : Effect a1 s1 s t) (ha : a1 ⊆ a2) (hs : s1 ⊆ s2) :
    Effect a2 s2 s t :=
  ⟨h.kept, fun c hc => h.memory c fun k => hc (hs k), fun c hc => h.devices c fun a k => hc a (ha k)⟩

theorem Effect.setPc (s : State) (v : Addr) : Effect [] [] s (s.setPc v) := .same (.setPc s v) rfl rfl
theorem Effect.setA (s : State) (v : Byte) : Effect [] [] s (s.setA v) := .same (.setA s v) rfl rfl
theorem Effect.setX (s : State) (v : Byte) : Effect [] [] s (s.setX v) := .same (.setX s v) rfl rfl
theorem Effect.setY (s : State) (v : Byte) : Effect [] [] s (s.setY v) := .same (.setY s v) rfl rfl
theorem Effect.setSp (s : State) (v : Byte) : Effect [] [] s (s.setSp v) := .same (.setSp s v) rfl rfl
theorem Effect.setFlags (s : State) (f : Flags) : Effect [] [] s (s.setFlags f) := .same (.setFlags s f) rfl rfl
theorem Effect.setNZ (s : State) (v : Byte) : Effect [] [] s (s.setNZ v) := .same (.setNZ s v) rfl rfl
theorem Effect.setC (s : State) (c : Bool) : Effect [] [] s (s.setC c) := .same (.setC s c) rfl rfl

/-- A device replaced at `a`: a binding that does not contain `a` is found as before. -/
theorem findBinding_replaceDevice_other {bus : List Binding} {a c : Addr} {b : Binding} {d : Device}
    (hf : findBinding bus a = some b) (hs : d.size = b.device.size)
    (hc : ∀ b, findBinding bus c = some b → b.contains a = false) :
    findBinding (replaceDevice a d bus) c = findBinding bus c := by
  induction bus with
  | nil => rfl
  | cons x rest ih =>
    unfold findBinding at hf hc ih ⊢
    cases hx : x.contains a
    · simp [hx] at hf
      cases hxc : x.contains c
      · simp [hxc] at hc
        simp [replaceDevice, hx, hxc]
        exact ih hf hc
      · simp [replaceDevice, hx, hxc]
    · simp [hx] at hf
      subst hf
      have e : Binding.contains { x with device := d } c = x.contains c := by
        simp only [Binding.contains, Binding.size, hs]
        rfl
      cases hxc : x.contains c
      · simp [replaceDevice, hx, e, hxc]
      · have := hc x (by simp [hxc])
        simp [hx] at this

/-- A device replaced at `a`: an address outside the range of the binding `a` finds, finds what it found. -/
theorem findBinding_replaceDevice_outside {bus : List Binding} {a c : Addr} {b : Binding} {d : Device}
    (hf : findBinding bus a = some b) (hs : d.size = b.device.size) (hc : b.contains c = false) :
    findBinding (replaceDevice a d bus) c = findBinding bus c := by
  induction bus with
  | nil => rfl
  | cons x rest ih =>
    unfold findBinding at hf ih ⊢
    cases hx : x.contains a
    · simp [hx] at hf
      cases hxc : x.contains c <;> simp [replaceDevice, hx, hxc, ih hf]
    · simp [hx] at hf
      subst hf
      have e : Binding.contains { x with device := d } c = x.contains c := by
        simp only [Binding.contains, Binding.size, hs]
        rfl
      simp [replaceDevice, hx, e, hc]

theorem Effect.setDevice {s : State} {a : Addr} {b : Binding} {d : Device} (hf : findBinding s.bus a = some b)
    (hk : d.kind = b.device.kind) (hs : d.size = b.device.size) :
    Effect [a] [] s (s.setBus (replaceDevice a d s.bus)) :=
  ⟨.setDevice hf hk hs, fun _ _ => rfl, fun c hc => findBinding_replaceDevice_other hf hs (hc a (by simp))⟩

theorem Effect.busRead {a : Addr} {s t : State} {v : Byte} (h : busRead a s = .ok v t) : Effect [a] [] s t := by
  obtain ⟨b, hb, ⟨_, _, _, rfl⟩ | ⟨d, hd, _, rfl⟩ | ⟨_, _, _, rfl⟩ | ⟨g, hg, _, rfl⟩⟩ := busRead_ok h
  · exact (Effect.refl _).mono (by simp) (by simp)
  · exact .setDevice hb (by rw [hd]; rfl) (by rw [hd]; rfl)
  · exact (Effect.refl _).mono (by simp) (by simp)
  · exact .setDevice hb (by rw [hg]; rfl) (by rw [hg]; rfl)

theorem Effect.busWrite {a : Addr} {v : Byte} {s t : State} (h : busWrite a v s = .ok () t) : Effect [a] [a] s t := by
  refine ⟨.busWrite h, fun c hc => busWrite_memory h (by simpa using hc), fun c hc => ?_⟩
  obtain ⟨b, hb, ⟨n, hn, rfl⟩ | ⟨_, _, _, rfl⟩ | ⟨d, hd, rfl⟩ | ⟨p, hp, rfl⟩ | ⟨g, hg, rfl⟩⟩ := busWrite_ok h
  · rfl
  · rfl
  · exact findBinding_replaceDevice_other hb (by rw [hd]; rfl) (hc a (by simp))
  · exact findBinding_replaceDevice_other hb (by rw [hp]; rfl) (hc a (by simp))
  · exact findBinding_replaceDevice_other hb (by rw [hg]; rfl) (hc a (by simp))

/-- The six registers of `t` are those of `s`. -/
structure SameCpu (s t : State) : Prop where
  pc    : t.pc = s.pc
  a     : t.a = s.a
  x     : t.x = s.x
  y     : t.y = s.y
  sp    : t.sp = s.sp
  flags : t.flags = s.flags

theorem SameCpu.refl (s : State) : SameCpu s s := ⟨rfl, rfl, rfl, rfl, rfl, rfl⟩

theorem SameCpu.trans {s t u : State} (h : SameCpu s t) (k : SameCpu t u) : SameCpu s u :=
  ⟨k.pc.trans h.pc, k.a.trans h.a, k.x.trans h.x, k.y.trans h.y, k.sp.trans h.sp, k.flags.trans h.flags⟩

theorem SameCpu.busRead {a : Addr} {s t : State} {v : Byte} (h : busRead a s = .ok v t) : SameCpu s t := by
  obtain ⟨h1, h2, h3, h4, h5, h6, _⟩ := busRead_registers h
  exact ⟨h1, h2, h3, h4, h5, h6⟩

theorem SameCpu.busWrite {a : Addr} {v : Byte} {s t : State} (h : busWrite a v s = .ok () t) : SameCpu s t := by
  obtain ⟨h1, h2, h3, h4, h5, h6⟩ := busWrite_registers h
  exact ⟨h1, h2, h3, h4, h5, h6⟩

/-- A two-byte read: the low byte at `a`, then the high byte at `a + 1`. -/
theorem memRead16_ok {a w : Addr} {s t : State} (h : memRead16 a s = .ok w t) :
    ∃ l h u, busRead a s = .ok l u ∧ busRead (a + 1#16) u = .ok h t ∧ w = word h l := by
  unfold memRead16 at h
  obtain ⟨l, u, h1, h2⟩ := Res.bind_eq_ok.mp h
  obtain ⟨h', v, h3, h4⟩ := Res.bind_eq_ok.mp h2
  simp only [Res.ok.injEq] at h4
  obtain ⟨rfl, rfl⟩ := h4
  exact ⟨l, h', u, h1, h3, rfl⟩

theorem Effect.memRead16 {a w : Addr} {s t : State} (h : memRead16 a s = .ok w t) : Effect [a, a + 1#16] [] s t := by
  obtain ⟨_, _, _, h1, h2, _⟩ := memRead16_ok h
  exact (Effect.busRead h1).trans (Effect.busRead h2)

theorem SameCpu.memRead16 {a w : Addr} {s t : State} (h : memRead16 a s = .ok w t) : SameCpu s t := by
  obtain ⟨_, _, _, h1, h2, _⟩ := memRead16_ok h
  exact (SameCpu.busRead h1).trans (SameCpu.busRead h2)

/-- A push: one write at the stack address, then the pointer goes down by one. -/
theorem push_ok {v : Byte} {s t : State} (h : push v s = .ok () t) :
    ∃ u, busWrite s.stackAddr v s = .ok () u ∧ t = u.setSp (s.sp - 1#8) := by
  unfold push at h
  obtain ⟨_, u, h1, h2⟩ := Res.bind_eq_ok.mp h
  simp only [Res.ok.injEq, true_and] at h2
  exact ⟨u, h1, by rw [← h2, (SameCpu.busWrite h1).sp]⟩

/-- The stack address after one push or pull depends on the pointer alone. -/
theorem State.stackAddr_eq {s t : State} (hp : t.params = s.params) : t.stackAddr = s.params.stackPage + zext t.sp := by
  unfold State.stackAddr; rw [hp]

theorem Effect.push {v : Byte} {s t : State} (h : push v s = .ok () t) : Effect [s.stackAddr] [s.stackAddr] s t := by
  obtain ⟨u, h1, rfl⟩ := push_ok h
  exact (Effect.busWrite h1).trans (Effect.setSp u _)

theorem SameCpu.push {v : Byte} {s t : State} (h : push v s = .ok () t) : SameCpu (s.setSp (s.sp - 1#8)) t := by
  obtain ⟨u, h1, rfl⟩ := push_ok h
  have k := SameCpu.busWrite h1
  exact ⟨k.pc, k.a, k.x, k.y, rfl, k.flags⟩

/-- A pull: the pointer goes up by one, then one read at the stack address. -/
theorem pull_ok {v : Byte} {s t : State} (h : pull s = .ok v t) :
    busRead (s.setSp (s.sp + 1#8)).stackAddr (s.setSp (s.sp + 1#8)) = .ok v t := h

theorem Effect.pull {v : Byte} {s t : State} (h : pull s = .ok v t) :
    Effect [(s.setSp (s.sp + 1#8)).stackAddr] [] s t :=
  (Effect.setSp s _).trans (Effect.busRead (pull_ok h))

theorem SameCpu.pull {v : Byte} {s t : State} (h : pull s = .ok v t) : SameCpu (s.setSp (s.sp + 1#8)) t :=
  SameCpu.busRead (pull_ok h)

theorem stackAddr_after {s t : State} {n : Byte} (hp : t.params = s.params) (hs : t.sp = s.sp - n) :
    t.stackAddr = stackSlot s n := by
  unfold stackSlot State.stackAddr
  rw [hp, hs]; rfl

theorem pushWord_ok {w : Addr} {s t : State} (h : pushWord w s = .ok () t) :
    ∃ u, push (hi w) s = .ok () u ∧ push (lo w) u = .ok () t := by
  unfold pushWord at h
  obtain ⟨_, u, h1, h2⟩ := Res.bind_eq_ok.mp h
  exact ⟨u, h1, h2⟩

theorem Effect.pushWord {w : Addr} {s t : State} (h : pushWord w s = .ok () t) :
    Effect [stackSlot s 0#8, stackSlot s 1#8] [stackSlot s 0#8, stackSlot s 1#8] s t := by
  obtain ⟨u, h1, h2⟩ := pushWord_ok h
  have e1 := Effect.push h1
  have e2 := Effect.push h2
  rw [stackAddr_after (n := 1#8) e1.kept.params (SameCpu.push h1).sp] at e2
  rw [stackAddr_after (s := s) (n := 0#8) rfl (by simp)] at e1
  exact e1.trans e2

theorem SameCpu.pushWord {w : Addr} {s t : State} (h : pushWord w s = .ok () t) : SameCpu (s.setSp (s.sp - 2#8)) t := by
  obtain ⟨u, h1, h2⟩ := pushWord_ok h
  have k1 := SameCpu.push h1
  have k2 := SameCpu.push h2
  refine ⟨k2.pc.trans k1.pc, k2.a.trans k1.a, k2.x.trans k1.x, k2.y.trans k1.y, ?_, k2.flags.trans k1.flags⟩
  rw [k2.sp, State.setSp_sp, k1.sp, State.setSp_sp, State.setSp_sp]
  bv_omega

theorem pullWord_ok {w : Addr} {s t : State} (h : pullWord s = .ok w t) :
    ∃ l h u, pull s = .ok l u ∧ pull u = .ok h t ∧ w = word h l := by
  unfold pullWord at h
  obtain ⟨l, u, h1, h2⟩ := Res.bind_eq_ok.mp h
  obtain ⟨h', v, h3, h4⟩ := Res.bind_eq_ok.mp h2
  simp only [Res.ok.injEq] at h4
  obtain ⟨rfl, rfl⟩ := h4
  exact ⟨l, h', u, h1, h3, rfl⟩

/-- The address a pull reads, as a slot. -/
theorem pull_slot (s : State) : (s.setSp (s.sp + 1#8)).stackAddr = stackSlot s (-1#8) := by
  unfold stackSlot
  congr 2
  bv_omega

theorem Effect.pullWord {w : Addr} {s t : State} (h : pullWord s = .ok w t) :
    Effect [stackSlot s (-1#8), stackSlot s (-2#8)] [] s t := by
  obtain ⟨_, _, u, h1, h2, _⟩ := pullWord_ok h
  have e1 := Effect.pull h1
  have e2 := Effect.pull h2
  have k1 := SameCpu.pull h1
  have e : (u.setSp (u.sp + 1#8)).stackAddr = stackSlot s (-2#8) := by
    refine stackAddr_after (by simp [e1.kept.params]) ?_
    rw [State.setSp_sp, k1.sp, State.setSp_sp]
    bv_omega
  rw [pull_slot] at e1
  rw [e] at e2
  exact e1.trans e2

theorem SameCpu.pullWord {w : Addr} {s t : State} (h : pullWord s = .ok w t) : SameCpu (s.setSp (s.sp + 2#8)) t := by
  obtain ⟨_, _, u, h1, h2, _⟩ := pullWord_ok h
  have k1 := SameCpu.pull h1
  have k2 := SameCpu.pull h2
  refine ⟨k2.pc.trans k1.pc, k2.a.trans k1.a, k2.x.trans k1.x, k2.y.trans k1.y, ?_, k2.flags.trans k1.flags⟩
  rw [k2.sp, State.setSp_sp, k1.sp, State.setSp_sp, State.setSp_sp]
  bv_omega

/-- Taking the trap, part by part. -/
theorem takeTrap_ok {vector ret : Addr} {s t : State} (h : takeTrap vector ret s = .ok () t) :
    ∃ u v target w, pushWord ret s = .ok () u ∧ push u.flags.pushed u = .ok () v ∧
      memRead16 vector (v.setFlags { v.flags with i := true }) = .ok target w ∧ t = w.setPc target := by
  unfold takeTrap at h
  obtain ⟨_, u, h1, h2⟩ := Res.bind_eq_ok.mp h
  obtain ⟨_, v, h3, h4⟩ := Res.bind_eq_ok.mp h2
  obtain ⟨target, w, h5, h6⟩ := Res.bind_eq_ok.mp h4
  simp only [Res.ok.injEq, true_and] at h6
  exact ⟨u, v, target, w, h1, h3, h5, h6.symm⟩

theorem Effect.takeTrap {vector ret : Addr} {s t : State} (h : takeTrap vector ret s = .ok () t) :
    Effect [stackSlot s 0#8, stackSlot s 1#8, stackSlot s 2#8, vector, vector + 1#16]
      [stackSlot s 0#8, stackSlot s 1#8, stackSlot s 2#8] s t := by
  obtain ⟨u, v, target, w, h1, h2, h3, rfl⟩ := takeTrap_ok h
  have e1 := Effect.pushWord h1
  have e2 := Effect.push h2
  rw [stackAddr_after (n := 2#8) e1.kept.params (SameCpu.pushWord h1).sp] at e2
  exact ((((e1.trans e2).trans (Effect.setFlags v _)).trans (Effect.memRead16 h3)).trans (Effect.setPc w _)).mono
    (by simp) (by simp)

theorem SameCpu.takeTrap {vector ret : Addr} {s t : State} (h : takeTrap vector ret s = .ok () t) :
    SameCpu (((s.setSp (s.sp - 3#8)).setFlags { s.flags with i := true }).setPc t.pc) t := by
  obtain ⟨u, v, target, w, h1, h2, h3, rfl⟩ := takeTrap_ok h
  have k1 := SameCpu.pushWord h1
  have k2 := SameCpu.push h2
  have k3 := SameCpu.memRead16 h3
  refine ⟨rfl, (k3.a.trans k2.a).trans k1.a, (k3.x.trans k2.x).trans k1.x, (k3.y.trans k2.y).trans k1.y, ?_, ?_⟩
  · simp only [State.setPc_sp, State.setFlags_sp, State.setSp_sp]
    rw [k3.sp, State.setFlags_sp, k2.sp, State.setSp_sp, k1.sp, State.setSp_sp]
    bv_omega
  · simp only [State.setPc_flags, State.setFlags_flags]
    rw [k3.flags, State.setFlags_flags, k2.flags, State.setSp_flags, k1.flags, State.setSp_flags]

/-- Returning from the trap, part by part. -/
theorem returnFromTrap_ok {s t : State} (h : returnFromTrap s = .ok () t) :
    ∃ v u target w, pull s = .ok v u ∧ pullWord (u.setFlags (Flags.ofByte v)) = .ok target w ∧ t = w.setPc target := by
  unfold returnFromTrap at h
  obtain ⟨v, u, h1, h2⟩ := Res.bind_eq_ok.mp h
  obtain ⟨target, w, h3, h4⟩ := Res.bind_eq_ok.mp h2
  simp only [Res.ok.injEq, true_and] at h4
  exact ⟨v, u, target, w, h1, h3, h4.symm⟩

theorem Effect.returnFromTrap {s t : State} (h : returnFromTrap s = .ok () t) :
    Effect [stackSlot s (-1#8), stackSlot s (-2#8), stackSlot s (-3#8)] [] s t := by
  obtain ⟨v, u, target, w, h1, h2, rfl⟩ := returnFromTrap_ok h
  have e1 := Effect.pull h1
  have k1 := SameCpu.pull h1
  have e2 := Effect.pullWord h2
  have slot : ∀ n : Byte, stackSlot (u.setFlags (Flags.ofByte v)) n = stackSlot s (n - 1#8) := by
    intro n
    unfold stackSlot
    refine stackAddr_after (by simp [e1.kept.params]) ?_
    simp only [State.setSp_sp, State.setFlags_sp]
    rw [k1.sp, State.setSp_sp]
    bv_omega
  rw [slot, slot] at e2
  rw [pull_slot] at e1
  exact (((e1.trans (Effect.setFlags u _)).trans e2).trans (Effect.setPc w _)).mono (by simp) (by simp)

theorem SameCpu.returnFromTrap {s t : State} (h : returnFromTrap s = .ok () t) :
    SameCpu (((s.setSp (s.sp + 3#8)).setFlags t.flags).setPc t.pc) t := by
  obtain ⟨v, u, target, w, h1, h2, rfl⟩ := returnFromTrap_ok h
  have k1 := SameCpu.pull h1
  have k2 := SameCpu.pullWord h2
  refine ⟨rfl, k2.a.trans k1.a, k2.x.trans k1.x, k2.y.trans k1.y, ?_, rfl⟩
  simp only [State.setPc_sp, State.setFlags_sp, State.setSp_sp]
  rw [k2.sp, State.setSp_sp, State.setFlags_sp, k1.sp, State.setSp_sp]
  bv_omega

theorem zeroPagePointer_ok {z : Byte} {w : Addr} {s t : State} (h : zeroPagePointer z s = .ok w t) :
    ∃ l h u, busRead (zext z) s = .ok l u ∧ busRead (zext (z + 1#8)) u = .ok h t ∧ w = word h l := by
  unfold zeroPagePointer at h
  obtain ⟨l, u, h1, h2⟩ := Res.bind_eq_ok.mp h
  obtain ⟨h', v, h3, h4⟩ := Res.bind_eq_ok.mp h2
  simp only [Res.ok.injEq] at h4
  obtain ⟨rfl, rfl⟩ := h4
  exact ⟨l, h', u, h1, h3, rfl⟩

theorem Effect.zeroPagePointer {z : Byte} {w : Addr} {s t : State} (h : zeroPagePointer z s = .ok w t) :
    Effect [zext z, zext (z + 1#8)] [] s t := by
  obtain ⟨_, _, _, h1, h2, _⟩ := zeroPagePointer_ok h
  exact (Effect.busRead h1).trans (Effect.busRead h2)

theorem SameCpu.zeroPagePointer {z : Byte} {w : Addr} {s t : State} (h : zeroPagePointer z s = .ok w t) : SameCpu s t := by
  obtain ⟨_, _, _, h1, h2, _⟩ := zeroPagePointer_ok h
  exact (SameCpu.busRead h1).trans (SameCpu.busRead h2)

theorem Effect.effectiveAddress {m : MemOperand} {ea : Addr} {s t : State} (h : effectiveAddress m s = .ok ea t) :
    Effect (pointerAddresses m s) [] s t := by
  cases m with
  | indexedIndirect zp => exact Effect.zeroPagePointer h
  | indirectIndexed zp =>
    obtain ⟨w, h1, _⟩ := Res.map_eq_ok.mp h
    exact Effect.zeroPagePointer h1
  | _ => simp [Machine.effectiveAddress] at h; obtain ⟨_, rfl⟩ := h; exact Effect.refl s

theorem SameCpu.effectiveAddress {m : MemOperand} {ea : Addr} {s t : State} (h : effectiveAddress m s = .ok ea t) :
    SameCpu s t := by
  cases m with
  | indexedIndirect zp => exact SameCpu.zeroPagePointer h
  | indirectIndexed zp =>
    obtain ⟨w, h1, _⟩ := Res.map_eq_ok.mp h
    exact SameCpu.zeroPagePointer h1
  | _ => simp [Machine.effectiveAddress] at h; obtain ⟨_, rfl⟩ := h; exact SameCpu.refl s

theorem eaOf_ok {m : MemOperand} {ea : Addr} {s t : State} (h : effectiveAddress m s = .ok ea t) : eaOf m s = [ea] := by
  unfold eaOf; rw [h]

theorem Effect.loadSource {src : Source} {v : Byte} {s t : State} (h : loadSource src s = .ok v t) :
    Effect (sourceAddresses src s) [] s t := by
  cases src with
  | immediate w => simp [Machine.loadSource] at h; obtain ⟨_, rfl⟩ := h; exact Effect.refl s
  | memory m =>
    obtain ⟨ea, u, h1, h2⟩ := Res.bind_eq_ok.mp h
    simp only [sourceAddresses]
    rw [eaOf_ok h1]
    exact (Effect.effectiveAddress h1).trans (Effect.busRead h2)

theorem SameCpu.loadSource {src : Source} {v : Byte} {s t : State} (h : loadSource src s = .ok v t) : SameCpu s t := by
  cases src with
  | immediate w => simp [Machine.loadSource] at h; obtain ⟨_, rfl⟩ := h; exact SameCpu.refl s
  | memory m =>
    obtain ⟨ea, u, h1, h2⟩ := Res.bind_eq_ok.mp h
    exact (SameCpu.effectiveAddress h1).trans (SameCpu.busRead h2)

theorem storeByte_ok {m : MemOperand} {v : Byte} {s t : State} (h : storeByte m v s = .ok () t) :
    ∃ ea u, effectiveAddress m s = .ok ea u ∧ busWrite ea v u = .ok () t := Res.bind_eq_ok.mp h

theorem Effect.storeByte {m : MemOperand} {v : Byte} {s t : State} (h : storeByte m v s = .ok () t) :
    Effect (pointerAddresses m s ++ eaOf m s) (eaOf m s) s t := by
  obtain ⟨ea, u, h1, h2⟩ := storeByte_ok h
  rw [eaOf_ok h1]
  exact (Effect.effectiveAddress h1).trans (Effect.busWrite h2)

theorem SameCpu.storeByte {m : MemOperand} {v : Byte} {s t : State} (h : storeByte m v s = .ok () t) : SameCpu s t := by
  obtain ⟨ea, u, h1, h2⟩ := storeByte_ok h
  exact (SameCpu.effectiveAddress h1).trans (SameCpu.busWrite h2)

/-- A read-modify-write on memory, part by part. -/
theorem modify_memory_ok {m : MemOperand} {f : Byte → State → Byte × State} {r : Byte} {s t : State}
    (h : modify (.memory m) f s = .ok r t) :
    ∃ ea u v w, effectiveAddress m s = .ok ea u ∧ busRead ea u = .ok v w ∧ r = (f v w).1 ∧
      busWrite ea r (f v w).2 = .ok () t := by
  obtain ⟨ea, u, h1, h2⟩ := Res.bind_eq_ok.mp h
  obtain ⟨v, w, h3, h4⟩ := Res.bind_eq_ok.mp h2
  obtain ⟨_, h5, h6⟩ := Res.map_eq_ok.mp h4
  exact ⟨ea, u, v, w, h1, h3, h6.symm, by rw [← h6]; exact h5⟩

/-- The outcome of a controlled execute phase is a next state when the operation completes. -/
theorem runControl_next {i : Instr} {f : State → Res Unit} {s t : State} :
    runControl i f s = .next t ↔ f s = .ok () t := by
  unfold runControl
  cases f s <;> simp

theorem runSequential_next {i : Instr} {f : State → Res Unit} {s t : State} :
    runSequential i f s = .next t ↔ ∃ u, f s = .ok () u ∧ t = u.setPc (nextPc i s) := by
  unfold runSequential
  rw [runControl_next, Res.bind_eq_ok]
  constructor
  · rintro ⟨_, u, h1, h2⟩
    simp only [Res.ok.injEq, true_and] at h2
    exact ⟨u, h1, h2.symm⟩
  · rintro ⟨u, h1, rfl⟩
    exact ⟨(), u, h1, rfl⟩

end Sys2Proof.Machine
end

