-- ==== Sys2Proof/Laws/Complete.lean ====
section
/-! SUPPORT. Where the shared operations complete, and what a push or a pull does where the stack byte is RAM. -/

namespace Sys2Proof.Machine

open Sys2Proof

theorem Res.exists_of_completes {α : Type} {r : Res α} (h : r.completes = true) : ∃ v t, r = .ok v t := by
  cases r with
  | ok v t => exact ⟨v, t, rfl⟩
  | fault e t => cases h

/-- A read at an address mapped at the start of the step completes, whatever reads and writes came before it. -/
theorem busRead_next {a : Addr} {s u : State} (k : Kept s u) (h : mapped s a = true) :
    ∃ v t, busRead a u = .ok v t ∧ Kept s t := by
  obtain ⟨v, t, e⟩ := Res.exists_of_completes (r := busRead a u) (by
    rw [busRead_completes, mapped_eq_of_layout k.layout]; exact h)
  exact ⟨v, t, e, k.trans (Kept.busRead e)⟩

/-- A write at a mapped address that is no ROM under `ROM_WRITE = fault` completes. -/
theorem busWrite_next {a : Addr} {s u : State} (v : Byte) (k : Kept s u) (h : mapped s a = true)
    (r : kindAt s a = some .rom → s.params.romWrite = .ignore) : ∃ t, busWrite a v u = .ok () t ∧ Kept s t := by
  obtain ⟨_, t, e⟩ := Res.exists_of_completes (r := busWrite a v u) (by
    rw [busWrite_completes, mapped_eq_of_layout k.layout, kindAt_eq_of_layout k.layout, h, k.params]
    by_cases hr : kindAt s a = some .rom
    · rw [r hr]; simp
    · simp [hr])
  exact ⟨t, e, k.trans (Kept.busWrite e)⟩

theorem effectiveAddress_next {m : MemOperand} {s : State} (h : ∀ a ∈ pointerAddresses m s, mapped s a = true) :
    ∃ ea t, effectiveAddress m s = .ok ea t ∧ Kept s t := by
  cases m with
  | indexedIndirect z =>
    obtain ⟨l, t, e1, k1⟩ := busRead_next (Kept.refl s) (h (zext (z + s.x)) (by simp [pointerAddresses]))
    obtain ⟨w, u, e2, k2⟩ := busRead_next k1 (h (zext (z + s.x + 1#8)) (by simp [pointerAddresses]))
    exact ⟨word w l, u, by simp [effectiveAddress, zeroPagePointer, e1, e2], k2⟩
  | indirectIndexed z =>
    obtain ⟨l, t, e1, k1⟩ := busRead_next (Kept.refl s) (h (zext z) (by simp [pointerAddresses]))
    obtain ⟨w, u, e2, k2⟩ := busRead_next k1 (h (zext (z + 1#8)) (by simp [pointerAddresses]))
    exact ⟨word w l + zext s.y, u, by simp [effectiveAddress, zeroPagePointer, e1, e2], k2⟩
  | _ => exact ⟨_, s, rfl, Kept.refl s⟩

/-- A push into slot `k` of the start of the step. -/
theorem push_next {s u : State} {k : Byte} (v : Byte) (e : Kept s u) (hs : u.sp = s.sp - k)
    (h : mapped s (stackSlot s k) = true) (r : kindAt s (stackSlot s k) = some .rom → s.params.romWrite = .ignore) :
    ∃ t, push v u = .ok () t ∧ Kept s t ∧ t.sp = s.sp - (k + 1#8) := by
  obtain ⟨w, e2, k2⟩ := busWrite_next v e h r
  refine ⟨w.setSp (w.sp - 1#8), ?_, k2.trans (.setSp _ _), ?_⟩
  · unfold push; rw [stackAddr_after e.params hs, e2]; rfl
  · rw [State.setSp_sp, (SameCpu.busWrite e2).sp, hs]; bv_omega

/-- A pull from slot `k` of the start of the step. -/
theorem pull_next {s u : State} {k : Byte} (e : Kept s u) (hs : u.sp = s.sp - (k + 1#8))
    (h : mapped s (stackSlot s k) = true) : ∃ v t, pull u = .ok v t ∧ Kept s t ∧ t.sp = s.sp - k := by
  have ea : (u.setSp (u.sp + 1#8)).stackAddr = stackSlot s k :=
    stackAddr_after e.params (by rw [State.setSp_sp, hs]; bv_omega)
  obtain ⟨v, w, e2, k2⟩ := busRead_next (e.trans (.setSp u (u.sp + 1#8))) h
  refine ⟨v, w, ?_, k2, ?_⟩
  · unfold pull; rw [← ea] at e2; exact e2
  · rw [(SameCpu.busRead e2).sp, State.setSp_sp, hs]; bv_omega

/-- The 256 stack slots are distinct addresses. -/
theorem stackSlot_ne (s : State) {a b : Byte} (h : a ≠ b) : stackSlot s a ≠ stackSlot s b := by
  unfold stackSlot State.stackAddr zext
  simp only [State.setSp_sp, State.setSp_params]
  intro e
  apply h
  have e := congrArg BitVec.toNat ((BitVec.add_right_inj _).mp e)
  simp at e
  have h1 := a.isLt
  have h2 := b.isLt
  have h3 := s.sp.isLt
  apply BitVec.eq_of_toNat_eq
  omega

/-- A state that differs from `s` in `PC`, `SP`, the flags and the memory alone. -/
structure SameOutside (s t : State) : Prop where
  bus    : t.bus = s.bus
  params : t.params = s.params
  a      : t.a = s.a
  x      : t.x = s.x
  y      : t.y = s.y

/-- A push onto RAM: the byte is at the slot, the other slots are as before. -/
theorem push_on_ram {s u : State} {k : Byte} (v : Byte) (hr : kindAt s (stackSlot s k) = some .ram)
    (e : SameOutside s u) (hs : u.sp = s.sp - k) :
    ∃ t, push v u = .ok () t ∧ SameOutside s t ∧ t.sp = s.sp - (k + 1#8) ∧ t.flags = u.flags ∧
      t.mem.read (stackSlot s k) = v ∧ ∀ j, j ≠ k → t.mem.read (stackSlot s j) = u.mem.read (stackSlot s j) := by
  have ea : u.stackAddr = stackSlot s k := stackAddr_after e.params hs
  have hw : busWrite (stackSlot s k) v u = .ok () (u.setMem (u.mem.write (stackSlot s k) v)) :=
    busWrite_ram (by unfold kindAt at hr ⊢; rw [e.bus]; exact hr)
  refine ⟨(u.setMem (u.mem.write (stackSlot s k) v)).setSp (u.sp - 1#8), ?_, ⟨e.bus, e.params, e.a, e.x, e.y⟩, ?_, rfl,
    Memory.read_write_same _ _ _, fun j hj => Memory.read_write_other _ _ (stackSlot_ne s hj)⟩
  · unfold push; rw [ea, hw]; rfl
  · rw [State.setSp_sp, hs]; bv_omega

/-- A pull from RAM. -/
theorem pull_from_ram {s u : State} {k : Byte} (hr : kindAt s (stackSlot s k) = some .ram) (e : SameOutside s u)
    (hs : u.sp = s.sp - (k + 1#8)) :
    ∃ t, pull u = .ok (u.mem.read (stackSlot s k)) t ∧ SameOutside s t ∧ t.sp = s.sp - k ∧ t.flags = u.flags ∧
      t.mem = u.mem := by
  have ea : (u.setSp (u.sp + 1#8)).stackAddr = stackSlot s k :=
    stackAddr_after e.params (by rw [State.setSp_sp, hs]; bv_omega)
  have q : pull u = .ok (u.mem.read (stackSlot s k)) (u.setSp (u.sp + 1#8)) := by
    unfold pull
    rw [← ea]
    exact busRead_storage (.inl (by rw [ea]; unfold kindAt at hr ⊢; rw [State.setSp_bus, e.bus]; exact hr))
  exact ⟨_, q, ⟨e.bus, e.params, e.a, e.x, e.y⟩, by rw [State.setSp_sp, hs]; bv_omega, rfl, rfl⟩

/-- The binding whose range holds an address is the one found, where no two overlap (`10_state.md` R31,
`20_memory.md` R53). -/
theorem findBinding_of_disjoint {bus : List Binding} {a : Addr} {b : Binding} (hd : busDisjoint bus = true) (hb : b ∈ bus)
    (h1 : b.base.toNat ≤ a.toNat) (h2 : a.toNat < b.base.toNat + b.size) : findBinding bus a = some b := by
  induction bus with
  | nil => cases hb
  | cons c rest ih =>
    simp only [busDisjoint, Bool.and_eq_true] at hd
    unfold findBinding at ih ⊢
    rcases List.mem_cons.mp hb with rfl | hb
    · simp [Binding.contains, h1, h2]
    · have o := List.all_eq_true.mp hd.1 b hb
      have : c.contains a = false := by
        simp [Binding.overlaps] at o
        simp [Binding.contains]
        omega
      simp [this, ih hd.2 hb]

theorem findBinding_eq_none {bus : List Binding} {a : Addr}
    (h : ∀ b ∈ bus, ¬(b.base.toNat ≤ a.toNat ∧ a.toNat < b.base.toNat + b.size)) : findBinding bus a = none := by
  unfold findBinding
  rw [List.find?_eq_none]
  intro b hb
  have := h b hb
  simp [Binding.contains]
  omega

end Sys2Proof.Machine
end

