-- ==== Sys2Proof/Laws/PerInstr.lean ====
section
/-! SUPPORT. The decoder row by row, and the law of the opcode map stated for each instruction as syntax. -/

namespace Sys2Proof

open Sys2Proof.Machine

theorem decodeWith_row0 {op b1 b2 : Byte} {low : Nat} (h : op.toNat / 16 = 0) (l : op.toNat % 16 = low) :
    decodeWith op b1 b2 = decodeRow0 low b1 b2 := by subst l; simp [decodeWith, h]

theorem decodeWith_row1 {op b1 b2 : Byte} {low : Nat} (h : op.toNat / 16 = 1) (l : op.toNat % 16 = low) :
    decodeWith op b1 b2 = decodeRow1 low b1 b2 := by subst l; simp [decodeWith, h]

theorem decodeWith_row2 {op b1 b2 : Byte} {low : Nat} (h : op.toNat / 16 = 2) (l : op.toNat % 16 = low) :
    decodeWith op b1 b2 = decodeRow2 low b1 b2 := by subst l; simp [decodeWith, h]

theorem decodeWith_row3 {op b1 b2 : Byte} {low : Nat} (h : op.toNat / 16 = 3) (l : op.toNat % 16 = low) :
    decodeWith op b1 b2 = decodeRow3 low b1 b2 := by subst l; simp [decodeWith, h]

theorem decodeWith_row4 {op b1 b2 : Byte} {low : Nat} (h : op.toNat / 16 = 4) (l : op.toNat % 16 = low) :
    decodeWith op b1 b2 = decodeRow4 low b1 b2 := by subst l; simp [decodeWith, h]

theorem decodeWith_row5 {op b1 b2 : Byte} {low : Nat} (h : op.toNat / 16 = 5) (l : op.toNat % 16 = low) :
    decodeWith op b1 b2 = decodeRow5 low b1 b2 := by subst l; simp [decodeWith, h]

theorem decodeWith_row6 {op b1 b2 : Byte} {low : Nat} (h : op.toNat / 16 = 6) (l : op.toNat % 16 = low) :
    decodeWith op b1 b2 = decodeRow6 low b1 b2 := by subst l; simp [decodeWith, h]

theorem decodeWith_row7 {op b1 b2 : Byte} {low : Nat} (h : op.toNat / 16 = 7) (l : op.toNat % 16 = low) :
    decodeWith op b1 b2 = decodeRow7 low b1 b2 := by subst l; simp [decodeWith, h]

theorem decodeWith_row8 {op b1 b2 : Byte} {low : Nat} (h : op.toNat / 16 = 8) (l : op.toNat % 16 = low) :
    decodeWith op b1 b2 = decodeRow8 low b1 b2 := by subst l; simp [decodeWith, h]

theorem decodeWith_row9 {op b1 b2 : Byte} {low : Nat} (h : op.toNat / 16 = 9) (l : op.toNat % 16 = low) :
    decodeWith op b1 b2 = decodeRow9 low b1 b2 := by subst l; simp [decodeWith, h]

theorem decodeWith_rowA {op b1 b2 : Byte} {low : Nat} (h : op.toNat / 16 = 10) (l : op.toNat % 16 = low) :
    decodeWith op b1 b2 = decodeRowA low b1 b2 := by subst l; simp [decodeWith, h]

theorem decodeWith_rowB {op b1 b2 : Byte} {low : Nat} (h : op.toNat / 16 = 11) (l : op.toNat % 16 = low) :
    decodeWith op b1 b2 = decodeRowB low b1 b2 := by subst l; simp [decodeWith, h]

theorem decodeWith_rowC {op b1 b2 : Byte} {low : Nat} (h : op.toNat / 16 = 12) (l : op.toNat % 16 = low) :
    decodeWith op b1 b2 = decodeRowC low b1 b2 := by subst l; simp [decodeWith, h]

theorem decodeWith_rowD {op b1 b2 : Byte} {low : Nat} (h : op.toNat / 16 = 13) (l : op.toNat % 16 = low) :
    decodeWith op b1 b2 = decodeRowD low b1 b2 := by subst l; simp [decodeWith, h]

theorem decodeWith_rowE {op b1 b2 : Byte} {low : Nat} (h : op.toNat / 16 = 14) (l : op.toNat % 16 = low) :
    decodeWith op b1 b2 = decodeRowE low b1 b2 := by subst l; simp [decodeWith, h]

theorem decodeWith_rowF {op b1 b2 : Byte} {low : Nat} (h : op.toNat / 16 = 15) (l : op.toNat % 16 = low) :
    decodeWith op b1 b2 = decodeRowF low b1 b2 := by subst l; simp [decodeWith, h]

end Sys2Proof

namespace Sys2Proof.Laws.OpcodeMap

open Sys2Proof Sys2Proof.Machine

/-- The first byte alone determines the mnemonic, the addressing mode and the length (`30_encoding.md` R82): whatever
bytes follow the opcode of `i`, the decoder reads an instruction of its mnemonic and mode. -/
def Statement (i : Instr) : Prop :=
  ∀ b1 b2 : Byte, ∃ j, decodeWith i.opcode b1 b2 = some j ∧ j.opcode = i.opcode ∧ j.mnemonic = i.mnemonic ∧ j.mode = i.mode

theorem brk : Statement .brk :=
  fun _ _ => ⟨_, decodeWith_row0 (op := 0x00#8) (low := 0) rfl rfl, rfl, rfl, rfl⟩

theorem oraIzx (zp : Byte) : Statement (.oraIzx zp) :=
  fun _ _ => ⟨_, decodeWith_row0 (op := 0x01#8) (low := 1) rfl rfl, rfl, rfl, rfl⟩

theorem oraZp (zp : Byte) : Statement (.oraZp zp) :=
  fun _ _ => ⟨_, decodeWith_row0 (op := 0x05#8) (low := 5) rfl rfl, rfl, rfl, rfl⟩

theorem aslZp (zp : Byte) : Statement (.aslZp zp) :=
  fun _ _ => ⟨_, decodeWith_row0 (op := 0x06#8) (low := 6) rfl rfl, rfl, rfl, rfl⟩

theorem php : Statement .php :=
  fun _ _ => ⟨_, decodeWith_row0 (op := 0x08#8) (low := 8) rfl rfl, rfl, rfl, rfl⟩

theorem oraImm (v : Byte) : Statement (.oraImm v) :=
  fun _ _ => ⟨_, decodeWith_row0 (op := 0x09#8) (low := 9) rfl rfl, rfl, rfl, rfl⟩

theorem aslAcc : Statement .aslAcc :=
  fun _ _ => ⟨_, decodeWith_row0 (op := 0x0A#8) (low := 10) rfl rfl, rfl, rfl, rfl⟩

theorem oraAbs (addr : Addr) : Statement (.oraAbs addr) :=
  fun _ _ => ⟨_, decodeWith_row0 (op := 0x0D#8) (low := 13) rfl rfl, rfl, rfl, rfl⟩

theorem aslAbs (addr : Addr) : Statement (.aslAbs addr) :=
  fun _ _ => ⟨_, decodeWith_row0 (op := 0x0E#8) (low := 14) rfl rfl, rfl, rfl, rfl⟩

theorem bpl (rel : Byte) : Statement (.bpl rel) :=
  fun _ _ => ⟨_, decodeWith_row1 (op := 0x10#8) (low := 0) rfl rfl, rfl, rfl, rfl⟩

theorem oraIzy (zp : Byte) : Statement (.oraIzy zp) :=
  fun _ _ => ⟨_, decodeWith_row1 (op := 0x11#8) (low := 1) rfl rfl, rfl, rfl, rfl⟩

theorem oraZpx (zp : Byte) : Statement (.oraZpx zp) :=
  fun _ _ => ⟨_, decodeWith_row1 (op := 0x15#8) (low := 5) rfl rfl, rfl, rfl, rfl⟩

theorem aslZpx (zp : Byte) : Statement (.aslZpx zp) :=
  fun _ _ => ⟨_, decodeWith_row1 (op := 0x16#8) (low := 6) rfl rfl, rfl, rfl, rfl⟩

theorem clc : Statement .clc :=
  fun _ _ => ⟨_, decodeWith_row1 (op := 0x18#8) (low := 8) rfl rfl, rfl, rfl, rfl⟩

theorem oraAby (addr : Addr) : Statement (.oraAby addr) :=
  fun _ _ => ⟨_, decodeWith_row1 (op := 0x19#8) (low := 9) rfl rfl, rfl, rfl, rfl⟩

theorem oraAbx (addr : Addr) : Statement (.oraAbx addr) :=
  fun _ _ => ⟨_, decodeWith_row1 (op := 0x1D#8) (low := 13) rfl rfl, rfl, rfl, rfl⟩

theorem aslAbx (addr : Addr) : Statement (.aslAbx addr) :=
  fun _ _ => ⟨_, decodeWith_row1 (op := 0x1E#8) (low := 14) rfl rfl, rfl, rfl, rfl⟩

theorem jsr (addr : Addr) : Statement (.jsr addr) :=
  fun _ _ => ⟨_, decodeWith_row2 (op := 0x20#8) (low := 0) rfl rfl, rfl, rfl, rfl⟩

theorem andIzx (zp : Byte) : Statement (.andIzx zp) :=
  fun _ _ => ⟨_, decodeWith_row2 (op := 0x21#8) (low := 1) rfl rfl, rfl, rfl, rfl⟩

theorem bitZp (zp : Byte) : Statement (.bitZp zp) :=
  fun _ _ => ⟨_, decodeWith_row2 (op := 0x24#8) (low := 4) rfl rfl, rfl, rfl, rfl⟩

theorem andZp (zp : Byte) : Statement (.andZp zp) :=
  fun _ _ => ⟨_, decodeWith_row2 (op := 0x25#8) (low := 5) rfl rfl, rfl, rfl, rfl⟩

theorem rolZp (zp : Byte) : Statement (.rolZp zp) :=
  fun _ _ => ⟨_, decodeWith_row2 (op := 0x26#8) (low := 6) rfl rfl, rfl, rfl, rfl⟩

theorem plp : Statement .plp :=
  fun _ _ => ⟨_, decodeWith_row2 (op := 0x28#8) (low := 8) rfl rfl, rfl, rfl, rfl⟩

theorem andImm (v : Byte) : Statement (.andImm v) :=
  fun _ _ => ⟨_, decodeWith_row2 (op := 0x29#8) (low := 9) rfl rfl, rfl, rfl, rfl⟩

theorem rolAcc : Statement .rolAcc :=
  fun _ _ => ⟨_, decodeWith_row2 (op := 0x2A#8) (low := 10) rfl rfl, rfl, rfl, rfl⟩

theorem bitAbs (addr : Addr) : Statement (.bitAbs addr) :=
  fun _ _ => ⟨_, decodeWith_row2 (op := 0x2C#8) (low := 12) rfl rfl, rfl, rfl, rfl⟩

theorem andAbs (addr : Addr) : Statement (.andAbs addr) :=
  fun _ _ => ⟨_, decodeWith_row2 (op := 0x2D#8) (low := 13) rfl rfl, rfl, rfl, rfl⟩

theorem rolAbs (addr : Addr) : Statement (.rolAbs addr) :=
  fun _ _ => ⟨_, decodeWith_row2 (op := 0x2E#8) (low := 14) rfl rfl, rfl, rfl, rfl⟩

theorem bmi (rel : Byte) : Statement (.bmi rel) :=
  fun _ _ => ⟨_, decodeWith_row3 (op := 0x30#8) (low := 0) rfl rfl, rfl, rfl, rfl⟩

theorem andIzy (zp : Byte) : Statement (.andIzy zp) :=
  fun _ _ => ⟨_, decodeWith_row3 (op := 0x31#8) (low := 1) rfl rfl, rfl, rfl, rfl⟩

theorem andZpx (zp : Byte) : Statement (.andZpx zp) :=
  fun _ _ => ⟨_, decodeWith_row3 (op := 0x35#8) (low := 5) rfl rfl, rfl, rfl, rfl⟩

theorem rolZpx (zp : Byte) : Statement (.rolZpx zp) :=
  fun _ _ => ⟨_, decodeWith_row3 (op := 0x36#8) (low := 6) rfl rfl, rfl, rfl, rfl⟩

theorem sec : Statement .sec :=
  fun _ _ => ⟨_, decodeWith_row3 (op := 0x38#8) (low := 8) rfl rfl, rfl, rfl, rfl⟩

theorem andAby (addr : Addr) : Statement (.andAby addr) :=
  fun _ _ => ⟨_, decodeWith_row3 (op := 0x39#8) (low := 9) rfl rfl, rfl, rfl, rfl⟩

theorem andAbx (addr : Addr) : Statement (.andAbx addr) :=
  fun _ _ => ⟨_, decodeWith_row3 (op := 0x3D#8) (low := 13) rfl rfl, rfl, rfl, rfl⟩

theorem rolAbx (addr : Addr) : Statement (.rolAbx addr) :=
  fun _ _ => ⟨_, decodeWith_row3 (op := 0x3E#8) (low := 14) rfl rfl, rfl, rfl, rfl⟩

theorem rti : Statement .rti :=
  fun _ _ => ⟨_, decodeWith_row4 (op := 0x40#8) (low := 0) rfl rfl, rfl, rfl, rfl⟩

theorem eorIzx (zp : Byte) : Statement (.eorIzx zp) :=
  fun _ _ => ⟨_, decodeWith_row4 (op := 0x41#8) (low := 1) rfl rfl, rfl, rfl, rfl⟩

theorem eorZp (zp : Byte) : Statement (.eorZp zp) :=
  fun _ _ => ⟨_, decodeWith_row4 (op := 0x45#8) (low := 5) rfl rfl, rfl, rfl, rfl⟩

theorem lsrZp (zp : Byte) : Statement (.lsrZp zp) :=
  fun _ _ => ⟨_, decodeWith_row4 (op := 0x46#8) (low := 6) rfl rfl, rfl, rfl, rfl⟩

theorem pha : Statement .pha :=
  fun _ _ => ⟨_, decodeWith_row4 (op := 0x48#8) (low := 8) rfl rfl, rfl, rfl, rfl⟩

theorem eorImm (v : Byte) : Statement (.eorImm v) :=
  fun _ _ => ⟨_, decodeWith_row4 (op := 0x49#8) (low := 9) rfl rfl, rfl, rfl, rfl⟩

theorem lsrAcc : Statement .lsrAcc :=
  fun _ _ => ⟨_, decodeWith_row4 (op := 0x4A#8) (low := 10) rfl rfl, rfl, rfl, rfl⟩

theorem jmpAbs (addr : Addr) : Statement (.jmpAbs addr) :=
  fun _ _ => ⟨_, decodeWith_row4 (op := 0x4C#8) (low := 12) rfl rfl, rfl, rfl, rfl⟩

theorem eorAbs (addr : Addr) : Statement (.eorAbs addr) :=
  fun _ _ => ⟨_, decodeWith_row4 (op := 0x4D#8) (low := 13) rfl rfl, rfl, rfl, rfl⟩

theorem lsrAbs (addr : Addr) : Statement (.lsrAbs addr) :=
  fun _ _ => ⟨_, decodeWith_row4 (op := 0x4E#8) (low := 14) rfl rfl, rfl, rfl, rfl⟩

theorem bvc (rel : Byte) : Statement (.bvc rel) :=
  fun _ _ => ⟨_, decodeWith_row5 (op := 0x50#8) (low := 0) rfl rfl, rfl, rfl, rfl⟩

theorem eorIzy (zp : Byte) : Statement (.eorIzy zp) :=
  fun _ _ => ⟨_, decodeWith_row5 (op := 0x51#8) (low := 1) rfl rfl, rfl, rfl, rfl⟩

theorem eorZpx (zp : Byte) : Statement (.eorZpx zp) :=
  fun _ _ => ⟨_, decodeWith_row5 (op := 0x55#8) (low := 5) rfl rfl, rfl, rfl, rfl⟩

theorem lsrZpx (zp : Byte) : Statement (.lsrZpx zp) :=
  fun _ _ => ⟨_, decodeWith_row5 (op := 0x56#8) (low := 6) rfl rfl, rfl, rfl, rfl⟩

theorem cli : Statement .cli :=
  fun _ _ => ⟨_, decodeWith_row5 (op := 0x58#8) (low := 8) rfl rfl, rfl, rfl, rfl⟩

theorem eorAby (addr : Addr) : Statement (.eorAby addr) :=
  fun _ _ => ⟨_, decodeWith_row5 (op := 0x59#8) (low := 9) rfl rfl, rfl, rfl, rfl⟩

theorem eorAbx (addr : Addr) : Statement (.eorAbx addr) :=
  fun _ _ => ⟨_, decodeWith_row5 (op := 0x5D#8) (low := 13) rfl rfl, rfl, rfl, rfl⟩

theorem lsrAbx (addr : Addr) : Statement (.lsrAbx addr) :=
  fun _ _ => ⟨_, decodeWith_row5 (op := 0x5E#8) (low := 14) rfl rfl, rfl, rfl, rfl⟩

theorem rts : Statement .rts :=
  fun _ _ => ⟨_, decodeWith_row6 (op := 0x60#8) (low := 0) rfl rfl, rfl, rfl, rfl⟩

theorem adcIzx (zp : Byte) : Statement (.adcIzx zp) :=
  fun _ _ => ⟨_, decodeWith_row6 (op := 0x61#8) (low := 1) rfl rfl, rfl, rfl, rfl⟩

theorem adcZp (zp : Byte) : Statement (.adcZp zp) :=
  fun _ _ => ⟨_, decodeWith_row6 (op := 0x65#8) (low := 5) rfl rfl, rfl, rfl, rfl⟩

theorem rorZp (zp : Byte) : Statement (.rorZp zp) :=
  fun _ _ => ⟨_, decodeWith_row6 (op := 0x66#8) (low := 6) rfl rfl, rfl, rfl, rfl⟩

theorem pla : Statement .pla :=
  fun _ _ => ⟨_, decodeWith_row6 (op := 0x68#8) (low := 8) rfl rfl, rfl, rfl, rfl⟩

theorem adcImm (v : Byte) : Statement (.adcImm v) :=
  fun _ _ => ⟨_, decodeWith_row6 (op := 0x69#8) (low := 9) rfl rfl, rfl, rfl, rfl⟩

theorem rorAcc : Statement .rorAcc :=
  fun _ _ => ⟨_, decodeWith_row6 (op := 0x6A#8) (low := 10) rfl rfl, rfl, rfl, rfl⟩

theorem jmpInd (ptr : Addr) : Statement (.jmpInd ptr) :=
  fun _ _ => ⟨_, decodeWith_row6 (op := 0x6C#8) (low := 12) rfl rfl, rfl, rfl, rfl⟩

theorem adcAbs (addr : Addr) : Statement (.adcAbs addr) :=
  fun _ _ => ⟨_, decodeWith_row6 (op := 0x6D#8) (low := 13) rfl rfl, rfl, rfl, rfl⟩

theorem rorAbs (addr : Addr) : Statement (.rorAbs addr) :=
  fun _ _ => ⟨_, decodeWith_row6 (op := 0x6E#8) (low := 14) rfl rfl, rfl, rfl, rfl⟩

theorem bvs (rel : Byte) : Statement (.bvs rel) :=
  fun _ _ => ⟨_, decodeWith_row7 (op := 0x70#8) (low := 0) rfl rfl, rfl, rfl, rfl⟩

theorem adcIzy (zp : Byte) : Statement (.adcIzy zp) :=
  fun _ _ => ⟨_, decodeWith_row7 (op := 0x71#8) (low := 1) rfl rfl, rfl, rfl, rfl⟩

theorem adcZpx (zp : Byte) : Statement (.adcZpx zp) :=
  fun _ _ => ⟨_, decodeWith_row7 (op := 0x75#8) (low := 5) rfl rfl, rfl, rfl, rfl⟩

theorem rorZpx (zp : Byte) : Statement (.rorZpx zp) :=
  fun _ _ => ⟨_, decodeWith_row7 (op := 0x76#8) (low := 6) rfl rfl, rfl, rfl, rfl⟩

theorem sei : Statement .sei :=
  fun _ _ => ⟨_, decodeWith_row7 (op := 0x78#8) (low := 8) rfl rfl, rfl, rfl, rfl⟩

theorem adcAby (addr : Addr) : Statement (.adcAby addr) :=
  fun _ _ => ⟨_, decodeWith_row7 (op := 0x79#8) (low := 9) rfl rfl, rfl, rfl, rfl⟩

theorem adcAbx (addr : Addr) : Statement (.adcAbx addr) :=
  fun _ _ => ⟨_, decodeWith_row7 (op := 0x7D#8) (low := 13) rfl rfl, rfl, rfl, rfl⟩

theorem rorAbx (addr : Addr) : Statement (.rorAbx addr) :=
  fun _ _ => ⟨_, decodeWith_row7 (op := 0x7E#8) (low := 14) rfl rfl, rfl, rfl, rfl⟩

theorem staIzx (zp : Byte) : Statement (.staIzx zp) :=
  fun _ _ => ⟨_, decodeWith_row8 (op := 0x81#8) (low := 1) rfl rfl, rfl, rfl, rfl⟩

theorem styZp (zp : Byte) : Statement (.styZp zp) :=
  fun _ _ => ⟨_, decodeWith_row8 (op := 0x84#8) (low := 4) rfl rfl, rfl, rfl, rfl⟩

theorem staZp (zp : Byte) : Statement (.staZp zp) :=
  fun _ _ => ⟨_, decodeWith_row8 (op := 0x85#8) (low := 5) rfl rfl, rfl, rfl, rfl⟩

theorem stxZp (zp : Byte) : Statement (.stxZp zp) :=
  fun _ _ => ⟨_, decodeWith_row8 (op := 0x86#8) (low := 6) rfl rfl, rfl, rfl, rfl⟩

theorem dey : Statement .dey :=
  fun _ _ => ⟨_, decodeWith_row8 (op := 0x88#8) (low := 8) rfl rfl, rfl, rfl, rfl⟩

theorem txa : Statement .txa :=
  fun _ _ => ⟨_, decodeWith_row8 (op := 0x8A#8) (low := 10) rfl rfl, rfl, rfl, rfl⟩

theorem styAbs (addr : Addr) : Statement (.styAbs addr) :=
  fun _ _ => ⟨_, decodeWith_row8 (op := 0x8C#8) (low := 12) rfl rfl, rfl, rfl, rfl⟩

theorem staAbs (addr : Addr) : Statement (.staAbs addr) :=
  fun _ _ => ⟨_, decodeWith_row8 (op := 0x8D#8) (low := 13) rfl rfl, rfl, rfl, rfl⟩

theorem stxAbs (addr : Addr) : Statement (.stxAbs addr) :=
  fun _ _ => ⟨_, decodeWith_row8 (op := 0x8E#8) (low := 14) rfl rfl, rfl, rfl, rfl⟩

theorem bcc (rel : Byte) : Statement (.bcc rel) :=
  fun _ _ => ⟨_, decodeWith_row9 (op := 0x90#8) (low := 0) rfl rfl, rfl, rfl, rfl⟩

theorem staIzy (zp : Byte) : Statement (.staIzy zp) :=
  fun _ _ => ⟨_, decodeWith_row9 (op := 0x91#8) (low := 1) rfl rfl, rfl, rfl, rfl⟩

theorem styZpx (zp : Byte) : Statement (.styZpx zp) :=
  fun _ _ => ⟨_, decodeWith_row9 (op := 0x94#8) (low := 4) rfl rfl, rfl, rfl, rfl⟩

theorem staZpx (zp : Byte) : Statement (.staZpx zp) :=
  fun _ _ => ⟨_, decodeWith_row9 (op := 0x95#8) (low := 5) rfl rfl, rfl, rfl, rfl⟩

theorem stxZpy (zp : Byte) : Statement (.stxZpy zp) :=
  fun _ _ => ⟨_, decodeWith_row9 (op := 0x96#8) (low := 6) rfl rfl, rfl, rfl, rfl⟩

theorem tya : Statement .tya :=
  fun _ _ => ⟨_, decodeWith_row9 (op := 0x98#8) (low := 8) rfl rfl, rfl, rfl, rfl⟩

theorem staAby (addr : Addr) : Statement (.staAby addr) :=
  fun _ _ => ⟨_, decodeWith_row9 (op := 0x99#8) (low := 9) rfl rfl, rfl, rfl, rfl⟩

theorem txs : Statement .txs :=
  fun _ _ => ⟨_, decodeWith_row9 (op := 0x9A#8) (low := 10) rfl rfl, rfl, rfl, rfl⟩

theorem staAbx (addr : Addr) : Statement (.staAbx addr) :=
  fun _ _ => ⟨_, decodeWith_row9 (op := 0x9D#8) (low := 13) rfl rfl, rfl, rfl, rfl⟩

theorem ldyImm (v : Byte) : Statement (.ldyImm v) :=
  fun _ _ => ⟨_, decodeWith_rowA (op := 0xA0#8) (low := 0) rfl rfl, rfl, rfl, rfl⟩

theorem ldaIzx (zp : Byte) : Statement (.ldaIzx zp) :=
  fun _ _ => ⟨_, decodeWith_rowA (op := 0xA1#8) (low := 1) rfl rfl, rfl, rfl, rfl⟩

theorem ldxImm (v : Byte) : Statement (.ldxImm v) :=
  fun _ _ => ⟨_, decodeWith_rowA (op := 0xA2#8) (low := 2) rfl rfl, rfl, rfl, rfl⟩

theorem ldyZp (zp : Byte) : Statement (.ldyZp zp) :=
  fun _ _ => ⟨_, decodeWith_rowA (op := 0xA4#8) (low := 4) rfl rfl, rfl, rfl, rfl⟩

theorem ldaZp (zp : Byte) : Statement (.ldaZp zp) :=
  fun _ _ => ⟨_, decodeWith_rowA (op := 0xA5#8) (low := 5) rfl rfl, rfl, rfl, rfl⟩

theorem ldxZp (zp : Byte) : Statement (.ldxZp zp) :=
  fun _ _ => ⟨_, decodeWith_rowA (op := 0xA6#8) (low := 6) rfl rfl, rfl, rfl, rfl⟩

theorem tay : Statement .tay :=
  fun _ _ => ⟨_, decodeWith_rowA (op := 0xA8#8) (low := 8) rfl rfl, rfl, rfl, rfl⟩

theorem ldaImm (v : Byte) : Statement (.ldaImm v) :=
  fun _ _ => ⟨_, decodeWith_rowA (op := 0xA9#8) (low := 9) rfl rfl, rfl, rfl, rfl⟩

theorem tax : Statement .tax :=
  fun _ _ => ⟨_, decodeWith_rowA (op := 0xAA#8) (low := 10) rfl rfl, rfl, rfl, rfl⟩

theorem ldyAbs (addr : Addr) : Statement (.ldyAbs addr) :=
  fun _ _ => ⟨_, decodeWith_rowA (op := 0xAC#8) (low := 12) rfl rfl, rfl, rfl, rfl⟩

theorem ldaAbs (addr : Addr) : Statement (.ldaAbs addr) :=
  fun _ _ => ⟨_, decodeWith_rowA (op := 0xAD#8) (low := 13) rfl rfl, rfl, rfl, rfl⟩

theorem ldxAbs (addr : Addr) : Statement (.ldxAbs addr) :=
  fun _ _ => ⟨_, decodeWith_rowA (op := 0xAE#8) (low := 14) rfl rfl, rfl, rfl, rfl⟩

theorem bcs (rel : Byte) : Statement (.bcs rel) :=
  fun _ _ => ⟨_, decodeWith_rowB (op := 0xB0#8) (low := 0) rfl rfl, rfl, rfl, rfl⟩

theorem ldaIzy (zp : Byte) : Statement (.ldaIzy zp) :=
  fun _ _ => ⟨_, decodeWith_rowB (op := 0xB1#8) (low := 1) rfl rfl, rfl, rfl, rfl⟩

theorem ldyZpx (zp : Byte) : Statement (.ldyZpx zp) :=
  fun _ _ => ⟨_, decodeWith_rowB (op := 0xB4#8) (low := 4) rfl rfl, rfl, rfl, rfl⟩

theorem ldaZpx (zp : Byte) : Statement (.ldaZpx zp) :=
  fun _ _ => ⟨_, decodeWith_rowB (op := 0xB5#8) (low := 5) rfl rfl, rfl, rfl, rfl⟩

theorem ldxZpy (zp : Byte) : Statement (.ldxZpy zp) :=
  fun _ _ => ⟨_, decodeWith_rowB (op := 0xB6#8) (low := 6) rfl rfl, rfl, rfl, rfl⟩

theorem clv : Statement .clv :=
  fun _ _ => ⟨_, decodeWith_rowB (op := 0xB8#8) (low := 8) rfl rfl, rfl, rfl, rfl⟩

theorem ldaAby (addr : Addr) : Statement (.ldaAby addr) :=
  fun _ _ => ⟨_, decodeWith_rowB (op := 0xB9#8) (low := 9) rfl rfl, rfl, rfl, rfl⟩

theorem tsx : Statement .tsx :=
  fun _ _ => ⟨_, decodeWith_rowB (op := 0xBA#8) (low := 10) rfl rfl, rfl, rfl, rfl⟩

theorem ldyAbx (addr : Addr) : Statement (.ldyAbx addr) :=
  fun _ _ => ⟨_, decodeWith_rowB (op := 0xBC#8) (low := 12) rfl rfl, rfl, rfl, rfl⟩

theorem ldaAbx (addr : Addr) : Statement (.ldaAbx addr) :=
  fun _ _ => ⟨_, decodeWith_rowB (op := 0xBD#8) (low := 13) rfl rfl, rfl, rfl, rfl⟩

theorem ldxAby (addr : Addr) : Statement (.ldxAby addr) :=
  fun _ _ => ⟨_, decodeWith_rowB (op := 0xBE#8) (low := 14) rfl rfl, rfl, rfl, rfl⟩

theorem cpyImm (v : Byte) : Statement (.cpyImm v) :=
  fun _ _ => ⟨_, decodeWith_rowC (op := 0xC0#8) (low := 0) rfl rfl, rfl, rfl, rfl⟩

theorem cmpIzx (zp : Byte) : Statement (.cmpIzx zp) :=
  fun _ _ => ⟨_, decodeWith_rowC (op := 0xC1#8) (low := 1) rfl rfl, rfl, rfl, rfl⟩

theorem cpyZp (zp : Byte) : Statement (.cpyZp zp) :=
  fun _ _ => ⟨_, decodeWith_rowC (op := 0xC4#8) (low := 4) rfl rfl, rfl, rfl, rfl⟩

theorem cmpZp (zp : Byte) : Statement (.cmpZp zp) :=
  fun _ _ => ⟨_, decodeWith_rowC (op := 0xC5#8) (low := 5) rfl rfl, rfl, rfl, rfl⟩

theorem decZp (zp : Byte) : Statement (.decZp zp) :=
  fun _ _ => ⟨_, decodeWith_rowC (op := 0xC6#8) (low := 6) rfl rfl, rfl, rfl, rfl⟩

theorem iny : Statement .iny :=
  fun _ _ => ⟨_, decodeWith_rowC (op := 0xC8#8) (low := 8) rfl rfl, rfl, rfl, rfl⟩

theorem cmpImm (v : Byte) : Statement (.cmpImm v) :=
  fun _ _ => ⟨_, decodeWith_rowC (op := 0xC9#8) (low := 9) rfl rfl, rfl, rfl, rfl⟩

theorem dex : Statement .dex :=
  fun _ _ => ⟨_, decodeWith_rowC (op := 0xCA#8) (low := 10) rfl rfl, rfl, rfl, rfl⟩

theorem cpyAbs (addr : Addr) : Statement (.cpyAbs addr) :=
  fun _ _ => ⟨_, decodeWith_rowC (op := 0xCC#8) (low := 12) rfl rfl, rfl, rfl, rfl⟩

theorem cmpAbs (addr : Addr) : Statement (.cmpAbs addr) :=
  fun _ _ => ⟨_, decodeWith_rowC (op := 0xCD#8) (low := 13) rfl rfl, rfl, rfl, rfl⟩

theorem decAbs (addr : Addr) : Statement (.decAbs addr) :=
  fun _ _ => ⟨_, decodeWith_rowC (op := 0xCE#8) (low := 14) rfl rfl, rfl, rfl, rfl⟩

theorem bne (rel : Byte) : Statement (.bne rel) :=
  fun _ _ => ⟨_, decodeWith_rowD (op := 0xD0#8) (low := 0) rfl rfl, rfl, rfl, rfl⟩

theorem cmpIzy (zp : Byte) : Statement (.cmpIzy zp) :=
  fun _ _ => ⟨_, decodeWith_rowD (op := 0xD1#8) (low := 1) rfl rfl, rfl, rfl, rfl⟩

theorem cmpZpx (zp : Byte) : Statement (.cmpZpx zp) :=
  fun _ _ => ⟨_, decodeWith_rowD (op := 0xD5#8) (low := 5) rfl rfl, rfl, rfl, rfl⟩

theorem decZpx (zp : Byte) : Statement (.decZpx zp) :=
  fun _ _ => ⟨_, decodeWith_rowD (op := 0xD6#8) (low := 6) rfl rfl, rfl, rfl, rfl⟩

theorem cld : Statement .cld :=
  fun _ _ => ⟨_, decodeWith_rowD (op := 0xD8#8) (low := 8) rfl rfl, rfl, rfl, rfl⟩

theorem cmpAby (addr : Addr) : Statement (.cmpAby addr) :=
  fun _ _ => ⟨_, decodeWith_rowD (op := 0xD9#8) (low := 9) rfl rfl, rfl, rfl, rfl⟩

theorem cmpAbx (addr : Addr) : Statement (.cmpAbx addr) :=
  fun _ _ => ⟨_, decodeWith_rowD (op := 0xDD#8) (low := 13) rfl rfl, rfl, rfl, rfl⟩

theorem decAbx (addr : Addr) : Statement (.decAbx addr) :=
  fun _ _ => ⟨_, decodeWith_rowD (op := 0xDE#8) (low := 14) rfl rfl, rfl, rfl, rfl⟩

theorem cpxImm (v : Byte) : Statement (.cpxImm v) :=
  fun _ _ => ⟨_, decodeWith_rowE (op := 0xE0#8) (low := 0) rfl rfl, rfl, rfl, rfl⟩

theorem sbcIzx (zp : Byte) : Statement (.sbcIzx zp) :=
  fun _ _ => ⟨_, decodeWith_rowE (op := 0xE1#8) (low := 1) rfl rfl, rfl, rfl, rfl⟩

theorem cpxZp (zp : Byte) : Statement (.cpxZp zp) :=
  fun _ _ => ⟨_, decodeWith_rowE (op := 0xE4#8) (low := 4) rfl rfl, rfl, rfl, rfl⟩

theorem sbcZp (zp : Byte) : Statement (.sbcZp zp) :=
  fun _ _ => ⟨_, decodeWith_rowE (op := 0xE5#8) (low := 5) rfl rfl, rfl, rfl, rfl⟩

theorem incZp (zp : Byte) : Statement (.incZp zp) :=
  fun _ _ => ⟨_, decodeWith_rowE (op := 0xE6#8) (low := 6) rfl rfl, rfl, rfl, rfl⟩

theorem inx : Statement .inx :=
  fun _ _ => ⟨_, decodeWith_rowE (op := 0xE8#8) (low := 8) rfl rfl, rfl, rfl, rfl⟩

theorem sbcImm (v : Byte) : Statement (.sbcImm v) :=
  fun _ _ => ⟨_, decodeWith_rowE (op := 0xE9#8) (low := 9) rfl rfl, rfl, rfl, rfl⟩

theorem nop : Statement .nop :=
  fun _ _ => ⟨_, decodeWith_rowE (op := 0xEA#8) (low := 10) rfl rfl, rfl, rfl, rfl⟩

theorem cpxAbs (addr : Addr) : Statement (.cpxAbs addr) :=
  fun _ _ => ⟨_, decodeWith_rowE (op := 0xEC#8) (low := 12) rfl rfl, rfl, rfl, rfl⟩

theorem sbcAbs (addr : Addr) : Statement (.sbcAbs addr) :=
  fun _ _ => ⟨_, decodeWith_rowE (op := 0xED#8) (low := 13) rfl rfl, rfl, rfl, rfl⟩

theorem incAbs (addr : Addr) : Statement (.incAbs addr) :=
  fun _ _ => ⟨_, decodeWith_rowE (op := 0xEE#8) (low := 14) rfl rfl, rfl, rfl, rfl⟩

theorem beq (rel : Byte) : Statement (.beq rel) :=
  fun _ _ => ⟨_, decodeWith_rowF (op := 0xF0#8) (low := 0) rfl rfl, rfl, rfl, rfl⟩

theorem sbcIzy (zp : Byte) : Statement (.sbcIzy zp) :=
  fun _ _ => ⟨_, decodeWith_rowF (op := 0xF1#8) (low := 1) rfl rfl, rfl, rfl, rfl⟩

theorem sbcZpx (zp : Byte) : Statement (.sbcZpx zp) :=
  fun _ _ => ⟨_, decodeWith_rowF (op := 0xF5#8) (low := 5) rfl rfl, rfl, rfl, rfl⟩

theorem incZpx (zp : Byte) : Statement (.incZpx zp) :=
  fun _ _ => ⟨_, decodeWith_rowF (op := 0xF6#8) (low := 6) rfl rfl, rfl, rfl, rfl⟩

theorem sed : Statement .sed :=
  fun _ _ => ⟨_, decodeWith_rowF (op := 0xF8#8) (low := 8) rfl rfl, rfl, rfl, rfl⟩

theorem sbcAby (addr : Addr) : Statement (.sbcAby addr) :=
  fun _ _ => ⟨_, decodeWith_rowF (op := 0xF9#8) (low := 9) rfl rfl, rfl, rfl, rfl⟩

theorem sbcAbx (addr : Addr) : Statement (.sbcAbx addr) :=
  fun _ _ => ⟨_, decodeWith_rowF (op := 0xFD#8) (low := 13) rfl rfl, rfl, rfl, rfl⟩

theorem incAbx (addr : Addr) : Statement (.incAbx addr) :=
  fun _ _ => ⟨_, decodeWith_rowF (op := 0xFE#8) (low := 14) rfl rfl, rfl, rfl, rfl⟩

end Sys2Proof.Laws.OpcodeMap
end

