-- ==== Sys2Proof/Laws/Encoding.lean ====
section
/-! SUPPORT. The opcode byte of an instruction decodes to its mnemonic, mode and length; a property of the opcode map
is a finite check over the 256 bytes. -/

namespace Sys2Proof

open Sys2Proof.Machine

/-- The law of the opcode map holds of every instruction. -/
theorem opcodeMap_all (i : Instr) : Laws.OpcodeMap.Statement i :=
  match i with
  | .brk => Laws.OpcodeMap.brk
  | .oraIzx x => Laws.OpcodeMap.oraIzx x
  | .oraZp x => Laws.OpcodeMap.oraZp x
  | .aslZp x => Laws.OpcodeMap.aslZp x
  | .php => Laws.OpcodeMap.php
  | .oraImm x => Laws.OpcodeMap.oraImm x
  | .aslAcc => Laws.OpcodeMap.aslAcc
  | .oraAbs x => Laws.OpcodeMap.oraAbs x
  | .aslAbs x => Laws.OpcodeMap.aslAbs x
  | .bpl x => Laws.OpcodeMap.bpl x
  | .oraIzy x => Laws.OpcodeMap.oraIzy x
  | .oraZpx x => Laws.OpcodeMap.oraZpx x
  | .aslZpx x => Laws.OpcodeMap.aslZpx x
  | .clc => Laws.OpcodeMap.clc
  | .oraAby x => Laws.OpcodeMap.oraAby x
  | .oraAbx x => Laws.OpcodeMap.oraAbx x
  | .aslAbx x => Laws.OpcodeMap.aslAbx x
  | .jsr x => Laws.OpcodeMap.jsr x
  | .andIzx x => Laws.OpcodeMap.andIzx x
  | .bitZp x => Laws.OpcodeMap.bitZp x
  | .andZp x => Laws.OpcodeMap.andZp x
  | .rolZp x => Laws.OpcodeMap.rolZp x
  | .plp => Laws.OpcodeMap.plp
  | .andImm x => Laws.OpcodeMap.andImm x
  | .rolAcc => Laws.OpcodeMap.rolAcc
  | .bitAbs x => Laws.OpcodeMap.bitAbs x
  | .andAbs x => Laws.OpcodeMap.andAbs x
  | .rolAbs x => Laws.OpcodeMap.rolAbs x
  | .bmi x => Laws.OpcodeMap.bmi x
  | .andIzy x => Laws.OpcodeMap.andIzy x
  | .andZpx x => Laws.OpcodeMap.andZpx x
  | .rolZpx x => Laws.OpcodeMap.rolZpx x
  | .sec => Laws.OpcodeMap.sec
  | .andAby x => Laws.OpcodeMap.andAby x
  | .andAbx x => Laws.OpcodeMap.andAbx x
  | .rolAbx x => Laws.OpcodeMap.rolAbx x
  | .rti => Laws.OpcodeMap.rti
  | .eorIzx x => Laws.OpcodeMap.eorIzx x
  | .eorZp x => Laws.OpcodeMap.eorZp x
  | .lsrZp x => Laws.OpcodeMap.lsrZp x
  | .pha => Laws.OpcodeMap.pha
  | .eorImm x => Laws.OpcodeMap.eorImm x
  | .lsrAcc => Laws.OpcodeMap.lsrAcc
  | .jmpAbs x => Laws.OpcodeMap.jmpAbs x
  | .eorAbs x => Laws.OpcodeMap.eorAbs x
  | .lsrAbs x => Laws.OpcodeMap.lsrAbs x
  | .bvc x => Laws.OpcodeMap.bvc x
  | .eorIzy x => Laws.OpcodeMap.eorIzy x
  | .eorZpx x => Laws.OpcodeMap.eorZpx x
  | .lsrZpx x => Laws.OpcodeMap.lsrZpx x
  | .cli => Laws.OpcodeMap.cli
  | .eorAby x => Laws.OpcodeMap.eorAby x
  | .eorAbx x => Laws.OpcodeMap.eorAbx x
  | .lsrAbx x => Laws.OpcodeMap.lsrAbx x
  | .rts => Laws.OpcodeMap.rts
  | .adcIzx x => Laws.OpcodeMap.adcIzx x
  | .adcZp x => Laws.OpcodeMap.adcZp x
  | .rorZp x => Laws.OpcodeMap.rorZp x
  | .pla => Laws.OpcodeMap.pla
  | .adcImm x => Laws.OpcodeMap.adcImm x
  | .rorAcc => Laws.OpcodeMap.rorAcc
  | .jmpInd x => Laws.OpcodeMap.jmpInd x
  | .adcAbs x => Laws.OpcodeMap.adcAbs x
  | .rorAbs x => Laws.OpcodeMap.rorAbs x
  | .bvs x => Laws.OpcodeMap.bvs x
  | .adcIzy x => Laws.OpcodeMap.adcIzy x
  | .adcZpx x => Laws.OpcodeMap.adcZpx x
  | .rorZpx x => Laws.OpcodeMap.rorZpx x
  | .sei => Laws.OpcodeMap.sei
  | .adcAby x => Laws.OpcodeMap.adcAby x
  | .adcAbx x => Laws.OpcodeMap.adcAbx x
  | .rorAbx x => Laws.OpcodeMap.rorAbx x
  | .staIzx x => Laws.OpcodeMap.staIzx x
  | .styZp x => Laws.OpcodeMap.styZp x
  | .staZp x => Laws.OpcodeMap.staZp x
  | .stxZp x => Laws.OpcodeMap.stxZp x
  | .dey => Laws.OpcodeMap.dey
  | .txa => Laws.OpcodeMap.txa
  | .styAbs x => Laws.OpcodeMap.styAbs x
  | .staAbs x => Laws.OpcodeMap.staAbs x
  | .stxAbs x => Laws.OpcodeMap.stxAbs x
  | .bcc x => Laws.OpcodeMap.bcc x
  | .staIzy x => Laws.OpcodeMap.staIzy x
  | .styZpx x => Laws.OpcodeMap.styZpx x
  | .staZpx x => Laws.OpcodeMap.staZpx x
  | .stxZpy x => Laws.OpcodeMap.stxZpy x
  | .tya => Laws.OpcodeMap.tya
  | .staAby x => Laws.OpcodeMap.staAby x
  | .txs => Laws.OpcodeMap.txs
  | .staAbx x => Laws.OpcodeMap.staAbx x
  | .ldyImm x => Laws.OpcodeMap.ldyImm x
  | .ldaIzx x => Laws.OpcodeMap.ldaIzx x
  | .ldxImm x => Laws.OpcodeMap.ldxImm x
  | .ldyZp x => Laws.OpcodeMap.ldyZp x
  | .ldaZp x => Laws.OpcodeMap.ldaZp x
  | .ldxZp x => Laws.OpcodeMap.ldxZp x
  | .tay => Laws.OpcodeMap.tay
  | .ldaImm x => Laws.OpcodeMap.ldaImm x
  | .tax => Laws.OpcodeMap.tax
  | .ldyAbs x => Laws.OpcodeMap.ldyAbs x
  | .ldaAbs x => Laws.OpcodeMap.ldaAbs x
  | .ldxAbs x => Laws.OpcodeMap.ldxAbs x
  | .bcs x => Laws.OpcodeMap.bcs x
  | .ldaIzy x => Laws.OpcodeMap.ldaIzy x
  | .ldyZpx x => Laws.OpcodeMap.ldyZpx x
  | .ldaZpx x => Laws.OpcodeMap.ldaZpx x
  | .ldxZpy x => Laws.OpcodeMap.ldxZpy x
  | .clv => Laws.OpcodeMap.clv
  | .ldaAby x => Laws.OpcodeMap.ldaAby x
  | .tsx => Laws.OpcodeMap.tsx
  | .ldyAbx x => Laws.OpcodeMap.ldyAbx x
  | .ldaAbx x => Laws.OpcodeMap.ldaAbx x
  | .ldxAby x => Laws.OpcodeMap.ldxAby x
  | .cpyImm x => Laws.OpcodeMap.cpyImm x
  | .cmpIzx x => Laws.OpcodeMap.cmpIzx x
  | .cpyZp x => Laws.OpcodeMap.cpyZp x
  | .cmpZp x => Laws.OpcodeMap.cmpZp x
  | .decZp x => Laws.OpcodeMap.decZp x
  | .iny => Laws.OpcodeMap.iny
  | .cmpImm x => Laws.OpcodeMap.cmpImm x
  | .dex => Laws.OpcodeMap.dex
  | .cpyAbs x => Laws.OpcodeMap.cpyAbs x
  | .cmpAbs x => Laws.OpcodeMap.cmpAbs x
  | .decAbs x => Laws.OpcodeMap.decAbs x
  | .bne x => Laws.OpcodeMap.bne x
  | .cmpIzy x => Laws.OpcodeMap.cmpIzy x
  | .cmpZpx x => Laws.OpcodeMap.cmpZpx x
  | .decZpx x => Laws.OpcodeMap.decZpx x
  | .cld => Laws.OpcodeMap.cld
  | .cmpAby x => Laws.OpcodeMap.cmpAby x
  | .cmpAbx x => Laws.OpcodeMap.cmpAbx x
  | .decAbx x => Laws.OpcodeMap.decAbx x
  | .cpxImm x => Laws.OpcodeMap.cpxImm x
  | .sbcIzx x => Laws.OpcodeMap.sbcIzx x
  | .cpxZp x => Laws.OpcodeMap.cpxZp x
  | .sbcZp x => Laws.OpcodeMap.sbcZp x
  | .incZp x => Laws.OpcodeMap.incZp x
  | .inx => Laws.OpcodeMap.inx
  | .sbcImm x => Laws.OpcodeMap.sbcImm x
  | .nop => Laws.OpcodeMap.nop
  | .cpxAbs x => Laws.OpcodeMap.cpxAbs x
  | .sbcAbs x => Laws.OpcodeMap.sbcAbs x
  | .incAbs x => Laws.OpcodeMap.incAbs x
  | .beq x => Laws.OpcodeMap.beq x
  | .sbcIzy x => Laws.OpcodeMap.sbcIzy x
  | .sbcZpx x => Laws.OpcodeMap.sbcZpx x
  | .incZpx x => Laws.OpcodeMap.incZpx x
  | .sed => Laws.OpcodeMap.sed
  | .sbcAby x => Laws.OpcodeMap.sbcAby x
  | .sbcAbx x => Laws.OpcodeMap.sbcAbx x
  | .incAbx x => Laws.OpcodeMap.incAbx x

/-- The opcode byte alone gives an instruction of the same opcode, mnemonic and mode. -/
theorem decodeWith_opcode (i : Instr) :
    ∃ j, decodeWith i.opcode 0#8 0#8 = some j ∧ j.opcode = i.opcode ∧ j.mnemonic = i.mnemonic ∧ j.mode = i.mode :=
  opcodeMap_all i 0#8 0#8

theorem opcodeLength_opcode (i : Instr) : opcodeLength i.opcode = some i.length := by
  obtain ⟨j, h, _, _, hm⟩ := decodeWith_opcode i
  unfold opcodeLength
  rw [h, Option.map_some, Instr.length, hm]; rfl

/-- The first two checks of the record of an instruction hold. -/
theorem record_fits (i : Instr) : i.record.opcodeFits = true ∧ i.record.lengthFits = true := by
  obtain ⟨j, h, _, hm, hd⟩ := decodeWith_opcode i
  constructor
  · simp only [Instruction.opcodeFits, Instr.record, h, hm, hd, BEq.rfl, Bool.and_self]
  · simp [Instruction.lengthFits, Instr.record, Instr.length]

/-- A property of mnemonic, mode and opcode that holds of what each of the 256 bytes decodes to holds of every
instruction. -/
theorem forall_of_opcodes (p : Mnemonic → Mode → Byte → Bool)
    (h : (List.range 256).all (fun n =>
      match decodeWith (BitVec.ofNat 8 n) 0#8 0#8 with
      | some j => p j.mnemonic j.mode (BitVec.ofNat 8 n)
      | none => true) = true) (i : Instr) : p i.mnemonic i.mode i.opcode = true := by
  obtain ⟨j, hj, _, hm, hd⟩ := decodeWith_opcode i
  have := List.all_eq_true.mp h i.opcode.toNat (List.mem_range.mpr i.opcode.isLt)
  rw [BitVec.ofNat_toNat, BitVec.setWidth_eq, hj] at this
  rw [← hm, ← hd]
  exact this

/-- What a decoded instruction keeps of the bytes it was decoded from. -/
theorem decodeWith_bytes {op b1 b2 : Byte} {i : Instr} (h : decodeWith op b1 b2 = some i) :
    i.opcode = op ∧ (i.length = 2 → i.operand.op8 = b1) ∧ (i.length = 3 → i.operand.op16 = word b2 b1) := by
  unfold decodeWith at h
  have hop : op = BitVec.ofNat 8 (16 * (op.toNat / 16) + op.toNat % 16) := by
    apply BitVec.eq_of_toNat_eq; simp; omega
  have q : op.toNat / 16 < 16 := by have := op.isLt; omega
  generalize op.toNat / 16 = k at *
  generalize op.toNat % 16 = l at *
  subst hop
  have hk : k = 0 ∨ k = 1 ∨ k = 2 ∨ k = 3 ∨ k = 4 ∨ k = 5 ∨ k = 6 ∨ k = 7 ∨ k = 8 ∨ k = 9 ∨ k = 10 ∨ k = 11 ∨ k = 12 ∨
    k = 13 ∨ k = 14 ∨ k = 15 := by omega
  rcases hk with rfl | rfl | rfl | rfl | rfl | rfl | rfl | rfl | rfl | rfl | rfl | rfl | rfl | rfl | rfl | rfl <;>
    simp only [decodeRow0, decodeRow1, decodeRow2, decodeRow3, decodeRow4, decodeRow5, decodeRow6, decodeRow7, decodeRow8,
      decodeRow9, decodeRowA, decodeRowB, decodeRowC, decodeRowD, decodeRowE, decodeRowF] at h <;>
    split at h <;>
    first
      | (cases h; done)
      | (simp only [Option.some.injEq] at h
         subst h
         refine ⟨by rfl, ?_, ?_⟩ <;>
           simp [Instr.length, Instr.mode, Instr.operand, Operand.mode, MemOperand.mode, Mode.length, Operand.op8,
             Operand.op16])

/-- The length of a decoded instruction is the length its opcode byte alone decides. -/
theorem opcodeLength_of_decodeWith {op b1 b2 : Byte} {i : Instr} (h : decodeWith op b1 b2 = some i) :
    opcodeLength op = some i.length := by
  rw [← (decodeWith_bytes h).1]; exact opcodeLength_opcode i

theorem length_cases (i : Instr) : i.length = 1 ∨ i.length = 2 ∨ i.length = 3 := by
  unfold Instr.length; cases i.mode <;> simp [Mode.length]

end Sys2Proof
end

