-- ==== Sys2Proof/Laws/Exec.lean ====
section
/-! SUPPORT. The meaning of an instruction by its mnemonic and its operand: what the 151 arms of exec have in common,
said once for each of the 56 mnemonics. -/

namespace Sys2Proof.Machine

open Sys2Proof

/-- The source of an operand, where it is one. -/
def Operand.source : Operand → Source
  | .memory m => .memory m
  | .immediate v => .immediate v
  | _ => .immediate 0#8

/-- The memory operand of an operand, where it is one. -/
def Operand.place : Operand → MemOperand
  | .memory m => m
  | _ => .zeroPage 0#8

/-- The target of an operand, where it is one. -/
def Operand.target? : Operand → Target
  | .memory m => .memory m
  | _ => .accumulator

/-- The offset of a relative operand. -/
def Operand.offset : Operand → Byte
  | .relative r => r
  | _ => 0#8

theorem Source.source_operand (src : Source) : src.operand.source = src := by cases src <;> rfl

theorem Target.target_operand (t : Target) : t.operand.target? = t := by cases t <;> rfl

/-- The meaning of an instruction, by mnemonic. -/
def execBy (i : Instr) (s : State) : Outcome :=
  match i.mnemonic with
  | .LDA => runSequential i (lda i.operand.source) s
  | .LDX => runSequential i (ldx i.operand.source) s
  | .LDY => runSequential i (ldy i.operand.source) s
  | .CMP => runSequential i (cmp i.operand.source) s
  | .CPX => runSequential i (cpx i.operand.source) s
  | .CPY => runSequential i (cpy i.operand.source) s
  | .AND => runSequential i (andA i.operand.source) s
  | .ORA => runSequential i (oraA i.operand.source) s
  | .EOR => runSequential i (eorA i.operand.source) s
  | .BIT => runSequential i (bitA i.operand.source) s
  | .STA => runSequential i (sta i.operand.place) s
  | .STX => runSequential i (stx i.operand.place) s
  | .STY => runSequential i (sty i.operand.place) s
  | .INC => runSequential i (inc i.operand.place) s
  | .DEC => runSequential i (dec i.operand.place) s
  | .TAX => runSequential i tax s
  | .TAY => runSequential i tay s
  | .TXA => runSequential i txa s
  | .TYA => runSequential i tya s
  | .TSX => runSequential i tsx s
  | .TXS => runSequential i txs s
  | .PHA => runSequential i pha s
  | .PHP => runSequential i php s
  | .PLA => runSequential i pla s
  | .PLP => runSequential i plp s
  | .INX => runSequential i inx s
  | .INY => runSequential i iny s
  | .DEX => runSequential i dex s
  | .DEY => runSequential i dey s
  | .CLC => runSequential i clc s
  | .SEC => runSequential i sec s
  | .CLI => runSequential i cli s
  | .SEI => runSequential i sei s
  | .CLD => runSequential i cld s
  | .SED => runSequential i sed s
  | .CLV => runSequential i clv s
  | .NOP => runSequential i nop s
  | .ASL => runSequential i (asl i.operand.target?) s
  | .LSR => runSequential i (lsr i.operand.target?) s
  | .ROL => runSequential i (rol i.operand.target?) s
  | .ROR => runSequential i (ror i.operand.target?) s
  | .ADC => runArithmetic i i.operand.source adcResult s
  | .SBC => runArithmetic i i.operand.source sbcResult s
  | .BCC => runControl i (bcc i.operand.offset) s
  | .BCS => runControl i (bcs i.operand.offset) s
  | .BEQ => runControl i (beq i.operand.offset) s
  | .BNE => runControl i (bne i.operand.offset) s
  | .BMI => runControl i (bmi i.operand.offset) s
  | .BPL => runControl i (bpl i.operand.offset) s
  | .BVC => runControl i (bvc i.operand.offset) s
  | .BVS => runControl i (bvs i.operand.offset) s
  | .JMP =>
    match i.operand with
    | .indirect p => runControl i (jmpIndirect p) s
    | x => runControl i (jmp x.op16) s
  | .JSR => runControl i (jsr i.operand.op16) s
  | .RTS => runControl i rts s
  | .BRK => runControl i brk s
  | .RTI => runControl i rti s

/-- Every arm of exec is the meaning of its mnemonic. -/
theorem exec_eq_execBy (i : Instr) (s : State) : exec i s = execBy i s := by cases i <;> rfl

theorem exec_of_LDA {i : Instr} {src : Source} (h : i.mnemonic = .LDA) (o : i.operand = src.operand) (s : State) :
    exec i s = runSequential i (lda src) s := by
  rw [exec_eq_execBy]; simp only [execBy, h, o, Source.source_operand]

theorem exec_of_LDX {i : Instr} {src : Source} (h : i.mnemonic = .LDX) (o : i.operand = src.operand) (s : State) :
    exec i s = runSequential i (ldx src) s := by
  rw [exec_eq_execBy]; simp only [execBy, h, o, Source.source_operand]

theorem exec_of_LDY {i : Instr} {src : Source} (h : i.mnemonic = .LDY) (o : i.operand = src.operand) (s : State) :
    exec i s = runSequential i (ldy src) s := by
  rw [exec_eq_execBy]; simp only [execBy, h, o, Source.source_operand]

theorem exec_of_CMP {i : Instr} {src : Source} (h : i.mnemonic = .CMP) (o : i.operand = src.operand) (s : State) :
    exec i s = runSequential i (cmp src) s := by
  rw [exec_eq_execBy]; simp only [execBy, h, o, Source.source_operand]

theorem exec_of_CPX {i : Instr} {src : Source} (h : i.mnemonic = .CPX) (o : i.operand = src.operand) (s : State) :
    exec i s = runSequential i (cpx src) s := by
  rw [exec_eq_execBy]; simp only [execBy, h, o, Source.source_operand]

theorem exec_of_CPY {i : Instr} {src : Source} (h : i.mnemonic = .CPY) (o : i.operand = src.operand) (s : State) :
    exec i s = runSequential i (cpy src) s := by
  rw [exec_eq_execBy]; simp only [execBy, h, o, Source.source_operand]

theorem exec_of_AND {i : Instr} {src : Source} (h : i.mnemonic = .AND) (o : i.operand = src.operand) (s : State) :
    exec i s = runSequential i (andA src) s := by
  rw [exec_eq_execBy]; simp only [execBy, h, o, Source.source_operand]

theorem exec_of_ORA {i : Instr} {src : Source} (h : i.mnemonic = .ORA) (o : i.operand = src.operand) (s : State) :
    exec i s = runSequential i (oraA src) s := by
  rw [exec_eq_execBy]; simp only [execBy, h, o, Source.source_operand]

theorem exec_of_EOR {i : Instr} {src : Source} (h : i.mnemonic = .EOR) (o : i.operand = src.operand) (s : State) :
    exec i s = runSequential i (eorA src) s := by
  rw [exec_eq_execBy]; simp only [execBy, h, o, Source.source_operand]

theorem exec_of_BIT {i : Instr} {src : Source} (h : i.mnemonic = .BIT) (o : i.operand = src.operand) (s : State) :
    exec i s = runSequential i (bitA src) s := by
  rw [exec_eq_execBy]; simp only [execBy, h, o, Source.source_operand]

theorem exec_of_ADC {i : Instr} {src : Source} (h : i.mnemonic = .ADC) (o : i.operand = src.operand) (s : State) :
    exec i s = runArithmetic i src adcResult s := by
  rw [exec_eq_execBy]; simp only [execBy, h, o, Source.source_operand]

theorem exec_of_SBC {i : Instr} {src : Source} (h : i.mnemonic = .SBC) (o : i.operand = src.operand) (s : State) :
    exec i s = runArithmetic i src sbcResult s := by
  rw [exec_eq_execBy]; simp only [execBy, h, o, Source.source_operand]

theorem exec_of_STA {i : Instr} {m : MemOperand} (h : i.mnemonic = .STA) (o : i.operand = .memory m) (s : State) :
    exec i s = runSequential i (sta m) s := by
  rw [exec_eq_execBy]; simp only [execBy, h, o, Operand.place]

theorem exec_of_STX {i : Instr} {m : MemOperand} (h : i.mnemonic = .STX) (o : i.operand = .memory m) (s : State) :
    exec i s = runSequential i (stx m) s := by
  rw [exec_eq_execBy]; simp only [execBy, h, o, Operand.place]

theorem exec_of_STY {i : Instr} {m : MemOperand} (h : i.mnemonic = .STY) (o : i.operand = .memory m) (s : State) :
    exec i s = runSequential i (sty m) s := by
  rw [exec_eq_execBy]; simp only [execBy, h, o, Operand.place]

theorem exec_of_INC {i : Instr} {m : MemOperand} (h : i.mnemonic = .INC) (o : i.operand = .memory m) (s : State) :
    exec i s = runSequential i (inc m) s := by
  rw [exec_eq_execBy]; simp only [execBy, h, o, Operand.place]

theorem exec_of_DEC {i : Instr} {m : MemOperand} (h : i.mnemonic = .DEC) (o : i.operand = .memory m) (s : State) :
    exec i s = runSequential i (dec m) s := by
  rw [exec_eq_execBy]; simp only [execBy, h, o, Operand.place]

theorem exec_of_TAX {i : Instr} (h : i.mnemonic = .TAX) (s : State) : exec i s = runSequential i tax s := by
  rw [exec_eq_execBy]; simp only [execBy, h]

theorem exec_of_TAY {i : Instr} (h : i.mnemonic = .TAY) (s : State) : exec i s = runSequential i tay s := by
  rw [exec_eq_execBy]; simp only [execBy, h]

theorem exec_of_TXA {i : Instr} (h : i.mnemonic = .TXA) (s : State) : exec i s = runSequential i txa s := by
  rw [exec_eq_execBy]; simp only [execBy, h]

theorem exec_of_TYA {i : Instr} (h : i.mnemonic = .TYA) (s : State) : exec i s = runSequential i tya s := by
  rw [exec_eq_execBy]; simp only [execBy, h]

theorem exec_of_TSX {i : Instr} (h : i.mnemonic = .TSX) (s : State) : exec i s = runSequential i tsx s := by
  rw [exec_eq_execBy]; simp only [execBy, h]

theorem exec_of_TXS {i : Instr} (h : i.mnemonic = .TXS) (s : State) : exec i s = runSequential i txs s := by
  rw [exec_eq_execBy]; simp only [execBy, h]

theorem exec_of_PHA {i : Instr} (h : i.mnemonic = .PHA) (s : State) : exec i s = runSequential i pha s := by
  rw [exec_eq_execBy]; simp only [execBy, h]

theorem exec_of_PHP {i : Instr} (h : i.mnemonic = .PHP) (s : State) : exec i s = runSequential i php s := by
  rw [exec_eq_execBy]; simp only [execBy, h]

theorem exec_of_PLA {i : Instr} (h : i.mnemonic = .PLA) (s : State) : exec i s = runSequential i pla s := by
  rw [exec_eq_execBy]; simp only [execBy, h]

theorem exec_of_PLP {i : Instr} (h : i.mnemonic = .PLP) (s : State) : exec i s = runSequential i plp s := by
  rw [exec_eq_execBy]; simp only [execBy, h]

theorem exec_of_INX {i : Instr} (h : i.mnemonic = .INX) (s : State) : exec i s = runSequential i inx s := by
  rw [exec_eq_execBy]; simp only [execBy, h]

theorem exec_of_INY {i : Instr} (h : i.mnemonic = .INY) (s : State) : exec i s = runSequential i iny s := by
  rw [exec_eq_execBy]; simp only [execBy, h]

theorem exec_of_DEX {i : Instr} (h : i.mnemonic = .DEX) (s : State) : exec i s = runSequential i dex s := by
  rw [exec_eq_execBy]; simp only [execBy, h]

theorem exec_of_DEY {i : Instr} (h : i.mnemonic = .DEY) (s : State) : exec i s = runSequential i dey s := by
  rw [exec_eq_execBy]; simp only [execBy, h]

theorem exec_of_CLC {i : Instr} (h : i.mnemonic = .CLC) (s : State) : exec i s = runSequential i clc s := by
  rw [exec_eq_execBy]; simp only [execBy, h]

theorem exec_of_SEC {i : Instr} (h : i.mnemonic = .SEC) (s : State) : exec i s = runSequential i sec s := by
  rw [exec_eq_execBy]; simp only [execBy, h]

theorem exec_of_CLI {i : Instr} (h : i.mnemonic = .CLI) (s : State) : exec i s = runSequential i cli s := by
  rw [exec_eq_execBy]; simp only [execBy, h]

theorem exec_of_SEI {i : Instr} (h : i.mnemonic = .SEI) (s : State) : exec i s = runSequential i sei s := by
  rw [exec_eq_execBy]; simp only [execBy, h]

theorem exec_of_CLD {i : Instr} (h : i.mnemonic = .CLD) (s : State) : exec i s = runSequential i cld s := by
  rw [exec_eq_execBy]; simp only [execBy, h]

theorem exec_of_SED {i : Instr} (h : i.mnemonic = .SED) (s : State) : exec i s = runSequential i sed s := by
  rw [exec_eq_execBy]; simp only [execBy, h]

theorem exec_of_CLV {i : Instr} (h : i.mnemonic = .CLV) (s : State) : exec i s = runSequential i clv s := by
  rw [exec_eq_execBy]; simp only [execBy, h]

theorem exec_of_NOP {i : Instr} (h : i.mnemonic = .NOP) (s : State) : exec i s = runSequential i nop s := by
  rw [exec_eq_execBy]; simp only [execBy, h]

theorem exec_of_ASL {i : Instr} {t : Target} (h : i.mnemonic = .ASL) (o : i.operand = t.operand) (s : State) :
    exec i s = runSequential i (asl t) s := by
  rw [exec_eq_execBy]; simp only [execBy, h, o, Target.target_operand]

theorem exec_of_LSR {i : Instr} {t : Target} (h : i.mnemonic = .LSR) (o : i.operand = t.operand) (s : State) :
    exec i s = runSequential i (lsr t) s := by
  rw [exec_eq_execBy]; simp only [execBy, h, o, Target.target_operand]

theorem exec_of_ROL {i : Instr} {t : Target} (h : i.mnemonic = .ROL) (o : i.operand = t.operand) (s : State) :
    exec i s = runSequential i (rol t) s := by
  rw [exec_eq_execBy]; simp only [execBy, h, o, Target.target_operand]

theorem exec_of_ROR {i : Instr} {t : Target} (h : i.mnemonic = .ROR) (o : i.operand = t.operand) (s : State) :
    exec i s = runSequential i (ror t) s := by
  rw [exec_eq_execBy]; simp only [execBy, h, o, Target.target_operand]

theorem exec_of_BCC {i : Instr} {rel : Byte} (h : i.mnemonic = .BCC) (o : i.operand = .relative rel) (s : State) :
    exec i s = runControl i (bcc rel) s := by
  rw [exec_eq_execBy]; simp only [execBy, h, o, Operand.offset]

theorem exec_of_BCS {i : Instr} {rel : Byte} (h : i.mnemonic = .BCS) (o : i.operand = .relative rel) (s : State) :
    exec i s = runControl i (bcs rel) s := by
  rw [exec_eq_execBy]; simp only [execBy, h, o, Operand.offset]

theorem exec_of_BEQ {i : Instr} {rel : Byte} (h : i.mnemonic = .BEQ) (o : i.operand = .relative rel) (s : State) :
    exec i s = runControl i (beq rel) s := by
  rw [exec_eq_execBy]; simp only [execBy, h, o, Operand.offset]

theorem exec_of_BNE {i : Instr} {rel : Byte} (h : i.mnemonic = .BNE) (o : i.operand = .relative rel) (s : State) :
    exec i s = runControl i (bne rel) s := by
  rw [exec_eq_execBy]; simp only [execBy, h, o, Operand.offset]

theorem exec_of_BMI {i : Instr} {rel : Byte} (h : i.mnemonic = .BMI) (o : i.operand = .relative rel) (s : State) :
    exec i s = runControl i (bmi rel) s := by
  rw [exec_eq_execBy]; simp only [execBy, h, o, Operand.offset]

theorem exec_of_BPL {i : Instr} {rel : Byte} (h : i.mnemonic = .BPL) (o : i.operand = .relative rel) (s : State) :
    exec i s = runControl i (bpl rel) s := by
  rw [exec_eq_execBy]; simp only [execBy, h, o, Operand.offset]

theorem exec_of_BVC {i : Instr} {rel : Byte} (h : i.mnemonic = .BVC) (o : i.operand = .relative rel) (s : State) :
    exec i s = runControl i (bvc rel) s := by
  rw [exec_eq_execBy]; simp only [execBy, h, o, Operand.offset]

theorem exec_of_BVS {i : Instr} {rel : Byte} (h : i.mnemonic = .BVS) (o : i.operand = .relative rel) (s : State) :
    exec i s = runControl i (bvs rel) s := by
  rw [exec_eq_execBy]; simp only [execBy, h, o, Operand.offset]

end Sys2Proof.Machine
end

