-- ==== Sys2Proof/Laws/Step.lean ====
section
/-! SUPPORT. What the parts of a step around exec can do: fetch and decode, the hooks, the debugger's commands. -/

namespace Sys2Proof.Machine

open Sys2Proof

theorem busRead_mem {a : Addr} {s t : State} {v : Byte} (h : busRead a s = .ok v t) : t.mem = s.mem :=
  (busRead_registers h).2.2.2.2.2.2

/-- A machine that is ready takes a CPU step (`10_state.md` R28, R29). -/
theorem step_of_ready {s : State} (h : s.Ready) : step s = cpuStep s := by
  obtain ⟨h1, h2, h3⟩ := h
  simp [step, machineStep, agendaMove, cpuMove, h1, h2, h3]

/-- What no step changes: parameters, monitors, layout of the bindings, ROM bytes, the canonical form of memory. -/
structure SamePlatform (s t : State) : Prop where
  params    : t.params = s.params
  monitors  : t.monitors = s.monitors
  layout    : busLayout t.bus = busLayout s.bus
  canonical : s.mem.wf = true → t.mem.wf = true
  rom       : ∀ a, kindAt s a = some .rom → t.mem.read a = s.mem.read a

theorem SamePlatform.of_kept {s t : State} (k : Kept s t) : SamePlatform s t :=
  ⟨k.params, k.monitors, k.layout, k.canonical, k.rom⟩

theorem SamePlatform.trans {s t u : State} (h : SamePlatform s t) (k : SamePlatform t u) : SamePlatform s u :=
  ⟨k.params.trans h.params, k.monitors.trans h.monitors, k.layout.trans h.layout, fun w => k.canonical (h.canonical w),
    fun a e => (k.rom a (by rw [kindAt_eq_of_layout h.layout, e])).trans (h.rom a e)⟩

theorem SamePlatform.of_eq {s t : State} (h1 : t.params = s.params) (h2 : t.monitors = s.monitors) (h3 : t.bus = s.bus)
    (h4 : t.mem = s.mem) : SamePlatform s t :=
  ⟨h1, h2, by rw [h3], by rw [h4]; exact id, fun _ _ => by rw [h4]⟩

/-- Fetch and decode change nothing but devices read from (`30_encoding.md` R80). -/
theorem fetch_keeps {s t : State} {i : Instr} (h : fetch s = .ok i t) : Kept s t ∧ SameCpu s t ∧ t.mem = s.mem := by
  unfold fetch at h
  cases h0 : busRead s.pc s with
  | fault e u => rw [h0] at h; cases h
  | ok op u =>
    rw [h0] at h
    dsimp only at h
    cases hl : opcodeLength op with
    | none => rw [hl] at h; cases h
    | some n =>
      rw [hl] at h
      dsimp only at h
      cases hf : fetchOperands n u with
      | fault e w => rw [hf] at h; cases h
      | ok b w =>
        obtain ⟨b1, b2⟩ := b
        rw [hf] at h
        dsimp only at h
        cases hd : decodeWith op b1 b2 with
        | none => rw [hd] at h; cases h
        | some j =>
          rw [hd] at h
          cases h
          have k : Kept u t ∧ SameCpu u t ∧ t.mem = u.mem := by
            unfold fetchOperands at hf
            split at hf
            · obtain ⟨_, _, e1, hf⟩ := Res.bind_eq_ok.mp hf
              obtain ⟨_, _, e2, hf⟩ := Res.bind_eq_ok.mp hf
              simp at hf
              obtain ⟨_, rfl⟩ := hf
              exact ⟨(Kept.busRead e1).trans (Kept.busRead e2), (SameCpu.busRead e1).trans (SameCpu.busRead e2),
                by rw [busRead_mem e2, busRead_mem e1]⟩
            · obtain ⟨_, _, e1, hf⟩ := Res.bind_eq_ok.mp hf
              simp at hf
              obtain ⟨_, rfl⟩ := hf
              exact ⟨Kept.busRead e1, SameCpu.busRead e1, busRead_mem e1⟩
            · simp at hf
              obtain ⟨_, rfl⟩ := hf
              exact ⟨.refl _, .refl _, rfl⟩
          exact ⟨(Kept.busRead h0).trans k.1, (SameCpu.busRead h0).trans k.2.1, by rw [k.2.2, busRead_mem h0]⟩

/-- The hooks change nothing of the platform (`48_breakpoint_engine.md` R262). -/
theorem runHooks_keeps (i : Instr) (ms : List Monitor) (s : State) :
    match runHooks i ms s with
    | .go t => SamePlatform s t
    | .pause t => SamePlatform s t := by
  induction ms generalizing s with
  | nil => exact .of_eq rfl rfl rfl rfl
  | cons m ms ih =>
    cases m with
    | observer id =>
      simp only [runHooks]
      have := ih (s.emit (.observed id i.record))
      have c : SamePlatform s (s.emit (.observed id i.record)) := .of_eq rfl rfl rfl rfl
      split <;> rename_i h <;> rw [h] at this <;> exact c.trans this
    | dbg =>
      simp only [runHooks]
      have c : SamePlatform s (evaluate i s) := .of_eq rfl rfl rfl rfl
      by_cases hf : (evaluate i s).dbg.freeRun = true
      · simp only [hf, if_true]
        have := ih (evaluate i s)
        split <;> rename_i h <;> rw [h] at this <;> exact c.trans this
      · simp only [hf]
        exact .of_eq rfl rfl rfl rfl

/-- A monitor that pauses holds the instruction, the monitors after it, and no `exit` of its own (`48_breakpoint_engine.md`
R265). -/
theorem runHooks_pause_run {i : Instr} {ms : List Monitor} {s t : State} (h : runHooks i ms s = .pause t) :
    ∃ rest, t.run = .paused i rest false := by
  induction ms generalizing s with
  | nil => simp [runHooks] at h
  | cons m ms ih =>
    cases m with
    | observer id => exact ih h
    | dbg =>
      simp only [runHooks] at h
      split at h
      · exact ih h
      · cases h
        exact ⟨ms, rfl⟩

/-- Monitors other than DBG let the instruction go and change the trace alone (`10_state.md` R30). -/
theorem runHooks_observers (i : Instr) {ms : List Monitor} (hm : .dbg ∉ ms) (s : State) :
    ∃ shown, runHooks i ms s = .go { s with trace := shown } := by
  induction ms generalizing s with
  | nil => exact ⟨s.trace, rfl⟩
  | cons m ms ih =>
    cases m with
    | observer id => exact ih (by simp at hm; exact hm) (s.emit (.observed id i.record))
    | dbg => simp at hm

@[simp] theorem afterExit_go (s : State) : afterExit (.go s) = .next (s.setRun (.halted (s.haltStatus.getD 0))) := rfl

@[simp] theorem afterExit_pause (s : State) : afterExit (.pause s) = .next s.rememberExit := rfl

theorem State.rememberExit_of_paused {s : State} {i : Instr} {rest : List Monitor} {ex : Bool}
    (h : s.run = .paused i rest ex) : s.rememberExit = s.setRun (.paused i rest true) := by
  simp [State.rememberExit, h]

/-- To remember an `exit` changes nothing of the platform. -/
theorem State.rememberExit_keeps (s : State) : SamePlatform s s.rememberExit := by
  unfold State.rememberExit
  split <;> exact .of_eq rfl rfl rfl rfl

/-- Once `exit` was issued, the monitors still to be called change nothing of the platform, and no instruction runs
(`30_encoding.md` R80). -/
theorem afterExit_keeps {i : Instr} {ms : List Monitor} {s t : State} (h : afterExit (runHooks i ms s) = .next t) :
    SamePlatform s t := by
  have k := runHooks_keeps i ms s
  cases hr : runHooks i ms s with
  | go u => rw [hr] at h k; cases h; exact k.trans (.of_eq rfl rfl rfl rfl)
  | pause u => rw [hr] at h k; cases h; exact SamePlatform.trans k u.rememberExit_keeps

/-- A debugger read of `n` bytes is `n` bus reads. -/
theorem readLittleEndian_keeps {n v : Nat} {a : Addr} {s t : State} (h : readLittleEndian n a s = .ok v t) :
    Kept s t ∧ SameCpu s t ∧ t.mem = s.mem := by
  induction n generalizing a s v t with
  | zero =>
    simp [readLittleEndian] at h
    obtain ⟨_, rfl⟩ := h
    exact ⟨.refl _, .refl _, rfl⟩
  | succ n ih =>
    simp only [readLittleEndian] at h
    obtain ⟨v1, s1, e1, h⟩ := Res.bind_eq_ok.mp h
    obtain ⟨v2, s2, e2, h⟩ := Res.bind_eq_ok.mp h
    simp at h
    obtain ⟨_, rfl⟩ := h
    obtain ⟨k1, k2, k3⟩ := ih e2
    exact ⟨(Kept.busRead e1).trans k1, (SameCpu.busRead e1).trans k2, by rw [k3, busRead_mem e1]⟩

end Sys2Proof.Machine
end

