-- ==== Sys2Proof/Tests/Slice0.lean ====
section
/-! SUPPORT. Tests: words written out from `30_encoding.md` R98, the vectors of `95_test_vectors.md`, and a witness for
the hypotheses of every obligation that has some. -/

namespace Sys2Proof.Tests

open Sys2Proof Sys2Proof.Machine Sys2Proof.Claims

set_option maxRecDepth 20000

/-! ## Helpers -/

/-- The four byte registers of a vector. -/
structure Regs where
  a  : Byte
  x  : Byte
  y  : Byte
  sp : Byte
  deriving DecidableEq, Repr

/-- The maps of `95_test_vectors.md` section 2: B is RAM below 0x8000 and ROM from 0xF000. -/
def mapB : List Binding := [⟨"ram", 0x0000#16, .ram 0x8000#16⟩, ⟨"rom", 0xF000#16, .rom 0x1000#16⟩]

/-- Map C: no binding below 0x0200. -/
def mapC : List Binding := [⟨"ram", 0x0200#16, .ram 0x7E00#16⟩, ⟨"rom", 0xF000#16, .rom 0x1000#16⟩]

/-- Map D: no binding at 0x01FF. -/
def mapD : List Binding :=
  [⟨"low", 0x0000#16, .ram 0x01FF#16⟩, ⟨"high", 0x0200#16, .ram 0x7E00#16⟩, ⟨"rom", 0xF000#16, .rom 0x1000#16⟩]

/-- Map E: RAM below 0x8000 alone. -/
def mapE : List Binding := [⟨"ram", 0x0000#16, .ram 0x8000#16⟩]

/-- Memory with the listed cells written into it. -/
def cells (m : Memory) (l : List (Addr × Byte)) : Memory := l.foldl (fun m c => m.write c.1 c.2) m

/-- A machine ready for one CPU step, no monitor attached. -/
def start (bus : List Binding) (ps : Params) (pc : Addr) (r : Regs) (f : Flags) (l : List (Addr × Byte)) : State :=
  { State.reset with
    bus := bus, params := ps, pc := pc, a := r.a, x := r.x, y := r.y, sp := r.sp, flags := f, mem := cells [] l
    monitors := [] }

/-- The outcome is this next state. -/
def isNext (o : Outcome) (t : State) : Bool :=
  match o with
  | .next u => u == t
  | .fault _ => false
  | .refused _ => false

/-- The outcome is this fault. -/
def isFault (o : Outcome) (f : Fault) : Bool :=
  match o with
  | .fault g => g == f
  | .next _ => false
  | .refused _ => false

/-- The outcome is this refusal. -/
def isRefused (o : Outcome) (r : Refusal) : Bool :=
  match o with
  | .refused q => q == r
  | .next _ => false
  | .fault _ => false

/-- One step goes on with these registers and flags, the listed cells written, and nothing else changed. -/
def ends (s : State) (pc : Addr) (r : Regs) (f : Flags) (l : List (Addr × Byte)) : Bool :=
  isNext (step s) { s with pc := pc, a := r.a, x := r.x, y := r.y, sp := r.sp, flags := f, mem := cells s.mem l }

/-- Each byte sequence decodes to the instruction beside it, whole. -/
def decodesTo (l : List (List Byte × Instr)) : Bool := l.all fun p => decode p.1 == some (p.2, [])

/-! ## WellFormed: one ill-formed record for each check -/

theorem test_wf_refuses_the_opcode_of_another_mode :
    Instruction.wf ⟨0xA9#8, .LDA, .ZP, 0x10#8, 0x0000#16, 2⟩ = false ∧
    Instruction.opcodeFits ⟨0xA9#8, .LDA, .ZP, 0x10#8, 0x0000#16, 2⟩ = false := by decide

theorem test_wf_refuses_an_undefined_opcode :
    Instruction.wf ⟨0x02#8, .NOP, .IMP, 0x00#8, 0x0000#16, 1⟩ = false ∧
    Instruction.opcodeFits ⟨0x02#8, .NOP, .IMP, 0x00#8, 0x0000#16, 1⟩ = false := by decide

theorem test_wf_refuses_a_wrong_length :
    Instruction.wf ⟨0xA9#8, .LDA, .IMM, 0x00#8, 0x0000#16, 3⟩ = false ∧
    Instruction.lengthFits ⟨0xA9#8, .LDA, .IMM, 0x00#8, 0x0000#16, 3⟩ = false := by decide

theorem test_wf_refuses_a_byte_operand_that_the_length_lacks :
    Instruction.wf ⟨0xEA#8, .NOP, .IMP, 0x01#8, 0x0000#16, 1⟩ = false ∧
    Instruction.operandsFit ⟨0xEA#8, .NOP, .IMP, 0x01#8, 0x0000#16, 1⟩ = false := by decide

theorem test_wf_refuses_a_word_operand_that_the_length_lacks :
    Instruction.wf ⟨0xA9#8, .LDA, .IMM, 0x01#8, 0x0001#16, 2⟩ = false ∧
    Instruction.operandsFit ⟨0xA9#8, .LDA, .IMM, 0x01#8, 0x0001#16, 2⟩ = false := by decide

theorem test_wf_accepts_a_record : Instruction.wf ⟨0xAD#8, .LDA, .ABS, 0x00#8, 0x1234#16, 3⟩ = true := by decide

/-! ## Decoding: every row of `30_encoding.md` R98, operand bytes after the opcode, a word low byte first -/

theorem test_decode_loads : decodesTo (
    [([0xA0#8, 0x34#8], .ldyImm 0x34#8), ([0xA1#8, 0x7F#8], .ldaIzx 0x7F#8),
      ([0xA2#8, 0xCA#8], .ldxImm 0xCA#8), ([0xA4#8, 0x15#8], .ldyZp 0x15#8),
      ([0xA5#8, 0x60#8], .ldaZp 0x60#8), ([0xA6#8, 0xAB#8], .ldxZp 0xAB#8),
      ([0xA9#8, 0xF6#8], .ldaImm 0xF6#8), ([0xAC#8, 0x41#8, 0x5B#8], .ldyAbs 0x5B41#16)] ++
    [([0xAD#8, 0x8C#8, 0x8A#8], .ldaAbs 0x8A8C#16), ([0xAE#8, 0xD7#8, 0xB9#8], .ldxAbs 0xB9D7#16),
      ([0xB1#8, 0x22#8], .ldaIzy 0x22#8), ([0xB4#8, 0x6D#8], .ldyZpx 0x6D#8),
      ([0xB5#8, 0xB8#8], .ldaZpx 0xB8#8), ([0xB6#8, 0x03#8], .ldxZpy 0x03#8),
      ([0xB9#8, 0x4E#8, 0xA4#8], .ldaAby 0xA44E#16), ([0xBC#8, 0x99#8, 0xD3#8], .ldyAbx 0xD399#16)] ++
    [([0xBD#8, 0xE4#8, 0x02#8], .ldaAbx 0x02E4#16), ([0xBE#8, 0x2F#8, 0x31#8], .ldxAby 0x312F#16)]) = true := by decide

theorem test_decode_stores : decodesTo (
    [([0x81#8, 0x34#8], .staIzx 0x34#8), ([0x84#8, 0x7F#8], .styZp 0x7F#8),
      ([0x85#8, 0xCA#8], .staZp 0xCA#8), ([0x86#8, 0x15#8], .stxZp 0x15#8),
      ([0x8C#8, 0x60#8, 0xCE#8], .styAbs 0xCE60#16), ([0x8D#8, 0xAB#8, 0xFD#8], .staAbs 0xFDAB#16),
      ([0x8E#8, 0xF6#8, 0x2C#8], .stxAbs 0x2CF6#16), ([0x91#8, 0x41#8], .staIzy 0x41#8)] ++
    [([0x94#8, 0x8C#8], .styZpx 0x8C#8), ([0x95#8, 0xD7#8], .staZpx 0xD7#8),
      ([0x96#8, 0x22#8], .stxZpy 0x22#8), ([0x99#8, 0x6D#8, 0x17#8], .staAby 0x176D#16),
      ([0x9D#8, 0xB8#8, 0x46#8], .staAbx 0x46B8#16)]) = true := by decide

theorem test_decode_transfers_and_stack : decodesTo (
    [([0x08#8], .php), ([0x28#8], .plp),
      ([0x48#8], .pha), ([0x68#8], .pla),
      ([0x8A#8], .txa), ([0x98#8], .tya),
      ([0x9A#8], .txs), ([0xA8#8], .tay)] ++
    [([0xAA#8], .tax), ([0xBA#8], .tsx)]) = true := by decide

theorem test_decode_adc_sbc : decodesTo (
    [([0x61#8, 0x34#8], .adcIzx 0x34#8), ([0x65#8, 0x7F#8], .adcZp 0x7F#8),
      ([0x69#8, 0xCA#8], .adcImm 0xCA#8), ([0x6D#8, 0x15#8, 0x9F#8], .adcAbs 0x9F15#16),
      ([0x71#8, 0x60#8], .adcIzy 0x60#8), ([0x75#8, 0xAB#8], .adcZpx 0xAB#8),
      ([0x79#8, 0xF6#8, 0x2C#8], .adcAby 0x2CF6#16), ([0x7D#8, 0x41#8, 0x5B#8], .adcAbx 0x5B41#16)] ++
    [([0xE1#8, 0x8C#8], .sbcIzx 0x8C#8), ([0xE5#8, 0xD7#8], .sbcZp 0xD7#8),
      ([0xE9#8, 0x22#8], .sbcImm 0x22#8), ([0xED#8, 0x6D#8, 0x17#8], .sbcAbs 0x176D#16),
      ([0xF1#8, 0xB8#8], .sbcIzy 0xB8#8), ([0xF5#8, 0x03#8], .sbcZpx 0x03#8),
      ([0xF9#8, 0x4E#8, 0xA4#8], .sbcAby 0xA44E#16), ([0xFD#8, 0x99#8, 0xD3#8], .sbcAbx 0xD399#16)]) = true := by decide

theorem test_decode_compares : decodesTo (
    [([0xC0#8, 0x34#8], .cpyImm 0x34#8), ([0xC1#8, 0x7F#8], .cmpIzx 0x7F#8),
      ([0xC4#8, 0xCA#8], .cpyZp 0xCA#8), ([0xC5#8, 0x15#8], .cmpZp 0x15#8),
      ([0xC9#8, 0x60#8], .cmpImm 0x60#8), ([0xCC#8, 0xAB#8, 0xFD#8], .cpyAbs 0xFDAB#16),
      ([0xCD#8, 0xF6#8, 0x2C#8], .cmpAbs 0x2CF6#16), ([0xD1#8, 0x41#8], .cmpIzy 0x41#8)] ++
    [([0xD5#8, 0x8C#8], .cmpZpx 0x8C#8), ([0xD9#8, 0xD7#8, 0xB9#8], .cmpAby 0xB9D7#16),
      ([0xDD#8, 0x22#8, 0xE8#8], .cmpAbx 0xE822#16), ([0xE0#8, 0x6D#8], .cpxImm 0x6D#8),
      ([0xE4#8, 0xB8#8], .cpxZp 0xB8#8), ([0xEC#8, 0x03#8, 0x75#8], .cpxAbs 0x7503#16)]) = true := by decide

theorem test_decode_increments : decodesTo (
    [([0x88#8], .dey), ([0xC6#8, 0x7F#8], .decZp 0x7F#8),
      ([0xC8#8], .iny), ([0xCA#8], .dex),
      ([0xCE#8, 0x60#8, 0xCE#8], .decAbs 0xCE60#16), ([0xD6#8, 0xAB#8], .decZpx 0xAB#8),
      ([0xDE#8, 0xF6#8, 0x2C#8], .decAbx 0x2CF6#16), ([0xE6#8, 0x41#8], .incZp 0x41#8)] ++
    [([0xE8#8], .inx), ([0xEE#8, 0xD7#8, 0xB9#8], .incAbs 0xB9D7#16),
      ([0xF6#8, 0x22#8], .incZpx 0x22#8), ([0xFE#8, 0x6D#8, 0x17#8], .incAbx 0x176D#16)]) = true := by decide

theorem test_decode_logic : decodesTo (
    [([0x01#8, 0x34#8], .oraIzx 0x34#8), ([0x05#8, 0x7F#8], .oraZp 0x7F#8),
      ([0x09#8, 0xCA#8], .oraImm 0xCA#8), ([0x0D#8, 0x15#8, 0x9F#8], .oraAbs 0x9F15#16),
      ([0x11#8, 0x60#8], .oraIzy 0x60#8), ([0x15#8, 0xAB#8], .oraZpx 0xAB#8),
      ([0x19#8, 0xF6#8, 0x2C#8], .oraAby 0x2CF6#16), ([0x1D#8, 0x41#8, 0x5B#8], .oraAbx 0x5B41#16)] ++
    [([0x21#8, 0x8C#8], .andIzx 0x8C#8), ([0x24#8, 0xD7#8], .bitZp 0xD7#8),
      ([0x25#8, 0x22#8], .andZp 0x22#8), ([0x29#8, 0x6D#8], .andImm 0x6D#8),
      ([0x2C#8, 0xB8#8, 0x46#8], .bitAbs 0x46B8#16), ([0x2D#8, 0x03#8, 0x75#8], .andAbs 0x7503#16),
      ([0x31#8, 0x4E#8], .andIzy 0x4E#8), ([0x35#8, 0x99#8], .andZpx 0x99#8)] ++
    [([0x39#8, 0xE4#8, 0x02#8], .andAby 0x02E4#16), ([0x3D#8, 0x2F#8, 0x31#8], .andAbx 0x312F#16),
      ([0x41#8, 0x7A#8], .eorIzx 0x7A#8), ([0x45#8, 0xC5#8], .eorZp 0xC5#8),
      ([0x49#8, 0x10#8], .eorImm 0x10#8), ([0x4D#8, 0x5B#8, 0xED#8], .eorAbs 0xED5B#16),
      ([0x51#8, 0xA6#8], .eorIzy 0xA6#8), ([0x55#8, 0xF1#8], .eorZpx 0xF1#8)] ++
    [([0x59#8, 0x3C#8, 0x7A#8], .eorAby 0x7A3C#16), ([0x5D#8, 0x87#8, 0xA9#8], .eorAbx 0xA987#16)]) = true := by decide

theorem test_decode_shifts : decodesTo (
    [([0x06#8, 0x34#8], .aslZp 0x34#8), ([0x0A#8], .aslAcc),
      ([0x0E#8, 0xCA#8, 0x70#8], .aslAbs 0x70CA#16), ([0x16#8, 0x15#8], .aslZpx 0x15#8),
      ([0x1E#8, 0x60#8, 0xCE#8], .aslAbx 0xCE60#16), ([0x26#8, 0xAB#8], .rolZp 0xAB#8),
      ([0x2A#8], .rolAcc), ([0x2E#8, 0x41#8, 0x5B#8], .rolAbs 0x5B41#16)] ++
    [([0x36#8, 0x8C#8], .rolZpx 0x8C#8), ([0x3E#8, 0xD7#8, 0xB9#8], .rolAbx 0xB9D7#16),
      ([0x46#8, 0x22#8], .lsrZp 0x22#8), ([0x4A#8], .lsrAcc),
      ([0x4E#8, 0xB8#8, 0x46#8], .lsrAbs 0x46B8#16), ([0x56#8, 0x03#8], .lsrZpx 0x03#8),
      ([0x5E#8, 0x4E#8, 0xA4#8], .lsrAbx 0xA44E#16), ([0x66#8, 0x99#8], .rorZp 0x99#8)] ++
    [([0x6A#8], .rorAcc), ([0x6E#8, 0x2F#8, 0x31#8], .rorAbs 0x312F#16),
      ([0x76#8, 0x7A#8], .rorZpx 0x7A#8), ([0x7E#8, 0xC5#8, 0x8F#8], .rorAbx 0x8FC5#16)]) = true := by decide

theorem test_decode_control_flow : decodesTo (
    [([0x00#8], .brk), ([0x10#8, 0x7F#8], .bpl 0x7F#8),
      ([0x20#8, 0xCA#8, 0x70#8], .jsr 0x70CA#16), ([0x30#8, 0x15#8], .bmi 0x15#8),
      ([0x40#8], .rti), ([0x4C#8, 0xAB#8, 0xFD#8], .jmpAbs 0xFDAB#16),
      ([0x50#8, 0xF6#8], .bvc 0xF6#8), ([0x60#8], .rts)] ++
    [([0x6C#8, 0x8C#8, 0x8A#8], .jmpInd 0x8A8C#16), ([0x70#8, 0xD7#8], .bvs 0xD7#8),
      ([0x90#8, 0x22#8], .bcc 0x22#8), ([0xB0#8, 0x6D#8], .bcs 0x6D#8),
      ([0xD0#8, 0xB8#8], .bne 0xB8#8), ([0xF0#8, 0x03#8], .beq 0x03#8)]) = true := by decide

theorem test_decode_flags : decodesTo (
    [([0x18#8], .clc), ([0x38#8], .sec),
      ([0x58#8], .cli), ([0x78#8], .sei),
      ([0xB8#8], .clv), ([0xD8#8], .cld),
      ([0xEA#8], .nop), ([0xF8#8], .sed)]) = true := by decide

/-- The table numbers a later byte's bits on from the first. -/
theorem test_table_word : decodeTableWord 24 0x12348D = some (.staAbs 0x1234#16) ∧
    decodeTableWord 8 0xEA = some .nop ∧ decodeTableWord 8 0x8D = some (.staAbs 0x0000#16) ∧
    decodeTableWord 8 0x02 = none := by decide

/-! ## Single steps: vectors of `95_test_vectors.md` section 2, at most two for a mnemonic -/

/-- V47 `ADC #$01`, V67 `ADC #$46`. -/
theorem test_adc :
    ends (start flatBus Params.default 0x1000 ⟨0xFF, 0x00, 0x00, 0xFF⟩ ⟨false, false, false, false, false, false⟩ [(0x1000#16, 0x69#8), (0x1001#16, 0x01#8)])
      0x1002 ⟨0x00, 0x00, 0x00, 0xFF⟩ ⟨false, false, false, false, true, true⟩ [] = true ∧
    ends (start flatBus { Params.default with decimalArith := .bcdNmos } 0x1000 ⟨0x58, 0x00, 0x00, 0xFF⟩ ⟨false, false, true, false, false, true⟩ [(0x1000#16, 0x69#8), (0x1001#16, 0x46#8)])
      0x1002 ⟨0x05, 0x00, 0x00, 0xFF⟩ ⟨true, true, true, false, false, true⟩ [] = true := by decide

/-- V102 `AND #$3C`, V104 `AND $10,X`. -/
theorem test_and :
    ends (start flatBus Params.default 0x1000 ⟨0xF0, 0x00, 0x00, 0xFF⟩ ⟨false, false, false, false, false, false⟩ [(0x1000#16, 0x29#8), (0x1001#16, 0x3C#8)])
      0x1002 ⟨0x30, 0x00, 0x00, 0xFF⟩ ⟨false, false, false, false, false, false⟩ [] = true ∧
    ends (start flatBus Params.default 0x1000 ⟨0xFF, 0x02, 0x00, 0xFF⟩ ⟨false, false, false, false, false, false⟩ [(0x0012#16, 0x80#8), (0x1000#16, 0x35#8), (0x1001#16, 0x10#8)])
      0x1002 ⟨0x80, 0x02, 0x00, 0xFF⟩ ⟨true, false, false, false, false, false⟩ [] = true := by decide

/-- V14 `ASL A`, V116 `ASL $10`. -/
theorem test_asl :
    ends (start flatBus Params.default 0x1000 ⟨0x81, 0x00, 0x00, 0xFF⟩ ⟨false, false, false, false, false, false⟩ [(0x1000#16, 0x0A#8)])
      0x1001 ⟨0x02, 0x00, 0x00, 0xFF⟩ ⟨false, false, false, false, false, true⟩ [] = true ∧
    ends (start flatBus Params.default 0x1000 ⟨0x00, 0x00, 0x00, 0xFF⟩ ⟨false, false, false, false, false, false⟩ [(0x0010#16, 0xFF#8), (0x1000#16, 0x06#8), (0x1001#16, 0x10#8)])
      0x1002 ⟨0x00, 0x00, 0x00, 0xFF⟩ ⟨true, false, false, false, false, true⟩ [(0x0010#16, 0xFE#8)] = true := by decide

/-- V138 `BCC +5`, V139 `BCC +5`. -/
theorem test_bcc :
    ends (start flatBus Params.default 0x1000 ⟨0x00, 0x00, 0x00, 0xFF⟩ ⟨false, false, false, false, false, false⟩ [(0x1000#16, 0x90#8), (0x1001#16, 0x05#8)])
      0x1007 ⟨0x00, 0x00, 0x00, 0xFF⟩ ⟨false, false, false, false, false, false⟩ [] = true ∧
    ends (start flatBus Params.default 0x1000 ⟨0x00, 0x00, 0x00, 0xFF⟩ ⟨false, false, false, false, false, true⟩ [(0x1000#16, 0x90#8), (0x1001#16, 0x05#8)])
      0x1002 ⟨0x00, 0x00, 0x00, 0xFF⟩ ⟨false, false, false, false, false, true⟩ [] = true := by decide

/-- V140 `BCS -2`. -/
theorem test_bcs :
    ends (start flatBus Params.default 0x1000 ⟨0x00, 0x00, 0x00, 0xFF⟩ ⟨false, false, false, false, false, true⟩ [(0x1000#16, 0xB0#8), (0x1001#16, 0xFE#8)])
      0x1000 ⟨0x00, 0x00, 0x00, 0xFF⟩ ⟨false, false, false, false, false, true⟩ [] = true := by decide

/-- V141 `BEQ +16`, V142 `BEQ +16`. -/
theorem test_beq :
    ends (start flatBus Params.default 0x2000 ⟨0x00, 0x00, 0x00, 0xFF⟩ ⟨false, false, false, false, true, false⟩ [(0x2000#16, 0xF0#8), (0x2001#16, 0x10#8)])
      0x2012 ⟨0x00, 0x00, 0x00, 0xFF⟩ ⟨false, false, false, false, true, false⟩ [] = true ∧
    ends (start flatBus Params.default 0x2000 ⟨0x00, 0x00, 0x00, 0xFF⟩ ⟨false, false, false, false, false, false⟩ [(0x2000#16, 0xF0#8), (0x2001#16, 0x10#8)])
      0x2002 ⟨0x00, 0x00, 0x00, 0xFF⟩ ⟨false, false, false, false, false, false⟩ [] = true := by decide

/-- V111 `BIT $40`, V113 `BIT $2000`. -/
theorem test_bit :
    ends (start flatBus Params.default 0x1000 ⟨0x01, 0x00, 0x00, 0xFF⟩ ⟨false, false, false, false, false, false⟩ [(0x0040#16, 0xC0#8), (0x1000#16, 0x24#8), (0x1001#16, 0x40#8)])
      0x1002 ⟨0x01, 0x00, 0x00, 0xFF⟩ ⟨true, true, false, false, true, false⟩ [] = true ∧
    ends (start flatBus Params.default 0x1000 ⟨0x40, 0x00, 0x00, 0xFF⟩ ⟨false, false, false, false, false, false⟩ [(0x2000#16, 0x40#8), (0x1000#16, 0x2C#8), (0x1001#16, 0x00#8), (0x1002#16, 0x20#8)])
      0x1003 ⟨0x40, 0x00, 0x00, 0xFF⟩ ⟨false, true, false, false, false, false⟩ [] = true := by decide

/-- V144 `BMI -128`. -/
theorem test_bmi :
    ends (start flatBus Params.default 0x1000 ⟨0x00, 0x00, 0x00, 0xFF⟩ ⟨true, false, false, false, false, false⟩ [(0x1000#16, 0x30#8), (0x1001#16, 0x80#8)])
      0x0F82 ⟨0x00, 0x00, 0x00, 0xFF⟩ ⟨true, false, false, false, false, false⟩ [] = true := by decide

/-- V143 `BNE -3`. -/
theorem test_bne :
    ends (start flatBus Params.default 0x1005 ⟨0x00, 0x00, 0x00, 0xFF⟩ ⟨false, false, false, false, false, false⟩ [(0x1005#16, 0xD0#8), (0x1006#16, 0xFD#8)])
      0x1004 ⟨0x00, 0x00, 0x00, 0xFF⟩ ⟨false, false, false, false, false, false⟩ [] = true := by decide

/-- V145 `BPL +127`, V146 `BPL +127`. -/
theorem test_bpl :
    ends (start flatBus Params.default 0x1000 ⟨0x00, 0x00, 0x00, 0xFF⟩ ⟨false, false, false, false, false, false⟩ [(0x1000#16, 0x10#8), (0x1001#16, 0x7F#8)])
      0x1081 ⟨0x00, 0x00, 0x00, 0xFF⟩ ⟨false, false, false, false, false, false⟩ [] = true ∧
    ends (start flatBus Params.default 0x1000 ⟨0x00, 0x00, 0x00, 0xFF⟩ ⟨true, false, false, false, false, false⟩ [(0x1000#16, 0x10#8), (0x1001#16, 0x7F#8)])
      0x1002 ⟨0x00, 0x00, 0x00, 0xFF⟩ ⟨true, false, false, false, false, false⟩ [] = true := by decide

/-- V150 `BRK`, V151 `BRK`. -/
theorem test_brk :
    ends (start flatBus Params.default 0x1000 ⟨0x00, 0x00, 0x00, 0xFF⟩ ⟨false, false, false, false, false, false⟩ [(0xFFFE#16, 0x00#8), (0xFFFF#16, 0x90#8), (0x1000#16, 0x00#8)])
      0x9000 ⟨0x00, 0x00, 0x00, 0xFC⟩ ⟨false, false, false, true, false, false⟩ [(0x01FF#16, 0x10#8), (0x01FE#16, 0x02#8), (0x01FD#16, 0x30#8)] = true ∧
    ends (start flatBus Params.default 0x20FF ⟨0x00, 0x00, 0x00, 0x01⟩ ⟨true, false, true, false, false, true⟩ [(0xFFFE#16, 0x34#8), (0xFFFF#16, 0x12#8), (0x20FF#16, 0x00#8)])
      0x1234 ⟨0x00, 0x00, 0x00, 0xFE⟩ ⟨true, false, true, true, false, true⟩ [(0x0101#16, 0x21#8), (0x0100#16, 0x01#8), (0x01FF#16, 0xB9#8)] = true := by decide

/-- V147 `BVC +2`. -/
theorem test_bvc :
    ends (start flatBus Params.default 0xFFFE ⟨0x00, 0x00, 0x00, 0xFF⟩ ⟨false, false, false, false, false, false⟩ [(0xFFFE#16, 0x50#8), (0xFFFF#16, 0x02#8)])
      0x0002 ⟨0x00, 0x00, 0x00, 0xFF⟩ ⟨false, false, false, false, false, false⟩ [] = true := by decide

/-- V148 `BVS -4`, V149 `BVS -4`. -/
theorem test_bvs :
    ends (start flatBus Params.default 0x0000 ⟨0x00, 0x00, 0x00, 0xFF⟩ ⟨false, true, false, false, false, false⟩ [(0x0000#16, 0x70#8), (0x0001#16, 0xFC#8)])
      0xFFFE ⟨0x00, 0x00, 0x00, 0xFF⟩ ⟨false, true, false, false, false, false⟩ [] = true ∧
    ends (start flatBus Params.default 0x0000 ⟨0x00, 0x00, 0x00, 0xFF⟩ ⟨false, false, false, false, false, false⟩ [(0x0000#16, 0x70#8), (0x0001#16, 0xFC#8)])
      0x0002 ⟨0x00, 0x00, 0x00, 0xFF⟩ ⟨false, false, false, false, false, false⟩ [] = true := by decide

/-- V154 `CLC`. -/
theorem test_clc :
    ends (start flatBus Params.default 0x1000 ⟨0x00, 0x00, 0x00, 0xFF⟩ ⟨true, false, false, false, false, true⟩ [(0x1000#16, 0x18#8)])
      0x1001 ⟨0x00, 0x00, 0x00, 0xFF⟩ ⟨true, false, false, false, false, false⟩ [] = true := by decide

/-- V158 `CLD`. -/
theorem test_cld :
    ends (start flatBus Params.default 0x1000 ⟨0x00, 0x00, 0x00, 0xFF⟩ ⟨false, false, true, false, false, false⟩ [(0x1000#16, 0xD8#8)])
      0x1001 ⟨0x00, 0x00, 0x00, 0xFF⟩ ⟨false, false, false, false, false, false⟩ [] = true := by decide

/-- V156 `CLI`. -/
theorem test_cli :
    ends (start flatBus Params.default 0x1000 ⟨0x00, 0x00, 0x00, 0xFF⟩ ⟨false, false, false, true, false, false⟩ [(0x1000#16, 0x58#8)])
      0x1001 ⟨0x00, 0x00, 0x00, 0xFF⟩ ⟨false, false, false, false, false, false⟩ [] = true := by decide

/-- V160 `CLV`. -/
theorem test_clv :
    ends (start flatBus Params.default 0x1000 ⟨0x00, 0x00, 0x00, 0xFF⟩ ⟨false, true, false, false, false, true⟩ [(0x1000#16, 0xB8#8)])
      0x1001 ⟨0x00, 0x00, 0x00, 0xFF⟩ ⟨false, false, false, false, false, true⟩ [] = true := by decide

/-- V78 `CMP #$40`, V82 `CMP $10`. -/
theorem test_cmp :
    ends (start flatBus Params.default 0x1000 ⟨0x40, 0x00, 0x00, 0xFF⟩ ⟨false, true, false, false, false, false⟩ [(0x1000#16, 0xC9#8), (0x1001#16, 0x40#8)])
      0x1002 ⟨0x40, 0x00, 0x00, 0xFF⟩ ⟨false, true, false, false, true, true⟩ [] = true ∧
    ends (start flatBus Params.default 0x1000 ⟨0x05, 0x00, 0x00, 0xFF⟩ ⟨false, false, false, false, false, false⟩ [(0x0010#16, 0x04#8), (0x1000#16, 0xC5#8), (0x1001#16, 0x10#8)])
      0x1002 ⟨0x05, 0x00, 0x00, 0xFF⟩ ⟨false, false, false, false, false, true⟩ [] = true := by decide

/-- V84 `CPX #$0A`, V85 `CPX $10`. -/
theorem test_cpx :
    ends (start flatBus Params.default 0x1000 ⟨0x00, 0x05, 0x00, 0xFF⟩ ⟨false, false, false, false, false, false⟩ [(0x1000#16, 0xE0#8), (0x1001#16, 0x0A#8)])
      0x1002 ⟨0x00, 0x05, 0x00, 0xFF⟩ ⟨true, false, false, false, false, false⟩ [] = true ∧
    ends (start flatBus Params.default 0x1000 ⟨0x00, 0x10, 0x00, 0xFF⟩ ⟨false, false, false, false, false, false⟩ [(0x0010#16, 0x10#8), (0x1000#16, 0xE4#8), (0x1001#16, 0x10#8)])
      0x1002 ⟨0x00, 0x10, 0x00, 0xFF⟩ ⟨false, false, false, false, true, true⟩ [] = true := by decide

/-- V87 `CPY #$01`, V88 `CPY $10`. -/
theorem test_cpy :
    ends (start flatBus Params.default 0x1000 ⟨0x00, 0x00, 0xFF, 0xFF⟩ ⟨false, false, false, false, false, false⟩ [(0x1000#16, 0xC0#8), (0x1001#16, 0x01#8)])
      0x1002 ⟨0x00, 0x00, 0xFF, 0xFF⟩ ⟨true, false, false, false, false, true⟩ [] = true ∧
    ends (start flatBus Params.default 0x1000 ⟨0x00, 0x00, 0x00, 0xFF⟩ ⟨false, false, false, false, false, false⟩ [(0x0010#16, 0x00#8), (0x1000#16, 0xC4#8), (0x1001#16, 0x10#8)])
      0x1002 ⟨0x00, 0x00, 0x00, 0xFF⟩ ⟨false, false, false, false, true, true⟩ [] = true := by decide

/-- V94 `DEC $10`, V95 `DEC $10,X`. -/
theorem test_dec :
    ends (start flatBus Params.default 0x1000 ⟨0x00, 0x00, 0x00, 0xFF⟩ ⟨false, false, false, false, false, false⟩ [(0x0010#16, 0x00#8), (0x1000#16, 0xC6#8), (0x1001#16, 0x10#8)])
      0x1002 ⟨0x00, 0x00, 0x00, 0xFF⟩ ⟨true, false, false, false, false, false⟩ [(0x0010#16, 0xFF#8)] = true ∧
    ends (start flatBus Params.default 0x1000 ⟨0x00, 0xF0, 0x00, 0xFF⟩ ⟨false, false, false, false, false, false⟩ [(0x0000#16, 0x01#8), (0x1000#16, 0xD6#8), (0x1001#16, 0x10#8)])
      0x1002 ⟨0x00, 0xF0, 0x00, 0xFF⟩ ⟨false, false, false, false, true, false⟩ [(0x0000#16, 0x00#8)] = true := by decide

/-- V100 `DEX`. -/
theorem test_dex :
    ends (start flatBus Params.default 0x1000 ⟨0x00, 0x00, 0x00, 0xFF⟩ ⟨false, false, false, false, false, false⟩ [(0x1000#16, 0xCA#8)])
      0x1001 ⟨0x00, 0xFF, 0x00, 0xFF⟩ ⟨true, false, false, false, false, false⟩ [] = true := by decide

/-- V101 `DEY`. -/
theorem test_dey :
    ends (start flatBus Params.default 0x1000 ⟨0x00, 0x00, 0x01, 0xFF⟩ ⟨false, false, false, false, false, false⟩ [(0x1000#16, 0x88#8)])
      0x1001 ⟨0x00, 0x00, 0x00, 0xFF⟩ ⟨false, false, false, false, true, false⟩ [] = true := by decide

/-- V108 `EOR #$FF`, V110 `EOR $2000,Y`. -/
theorem test_eor :
    ends (start flatBus Params.default 0x1000 ⟨0xAA, 0x00, 0x00, 0xFF⟩ ⟨false, false, false, false, false, false⟩ [(0x1000#16, 0x49#8), (0x1001#16, 0xFF#8)])
      0x1002 ⟨0x55, 0x00, 0x00, 0xFF⟩ ⟨false, false, false, false, false, false⟩ [] = true ∧
    ends (start flatBus Params.default 0x1000 ⟨0x0F, 0x00, 0x00, 0xFF⟩ ⟨false, false, false, false, false, false⟩ [(0x2000#16, 0xF0#8), (0x1000#16, 0x59#8), (0x1001#16, 0x00#8), (0x1002#16, 0x20#8)])
      0x1003 ⟨0xFF, 0x00, 0x00, 0xFF⟩ ⟨true, false, false, false, false, false⟩ [] = true := by decide

/-- V90 `INC $10`, V91 `INC $10,X`. -/
theorem test_inc :
    ends (start flatBus Params.default 0x1000 ⟨0x00, 0x00, 0x00, 0xFF⟩ ⟨false, true, false, false, false, true⟩ [(0x0010#16, 0xFF#8), (0x1000#16, 0xE6#8), (0x1001#16, 0x10#8)])
      0x1002 ⟨0x00, 0x00, 0x00, 0xFF⟩ ⟨false, true, false, false, true, true⟩ [(0x0010#16, 0x00#8)] = true ∧
    ends (start flatBus Params.default 0x1000 ⟨0x00, 0x01, 0x00, 0xFF⟩ ⟨false, false, false, false, false, false⟩ [(0x0011#16, 0x7F#8), (0x1000#16, 0xF6#8), (0x1001#16, 0x10#8)])
      0x1002 ⟨0x00, 0x01, 0x00, 0xFF⟩ ⟨true, false, false, false, false, false⟩ [(0x0011#16, 0x80#8)] = true := by decide

/-- V98 `INX`. -/
theorem test_inx :
    ends (start flatBus Params.default 0x1000 ⟨0x00, 0xFF, 0x00, 0xFF⟩ ⟨false, false, false, false, false, false⟩ [(0x1000#16, 0xE8#8)])
      0x1001 ⟨0x00, 0x00, 0x00, 0xFF⟩ ⟨false, false, false, false, true, false⟩ [] = true := by decide

/-- V99 `INY`. -/
theorem test_iny :
    ends (start flatBus Params.default 0x1000 ⟨0x00, 0x00, 0x7F, 0xFF⟩ ⟨false, false, false, false, false, false⟩ [(0x1000#16, 0xC8#8)])
      0x1001 ⟨0x00, 0x00, 0x80, 0xFF⟩ ⟨true, false, false, false, false, false⟩ [] = true := by decide

/-- V10 `JMP ($02FF)`, V11 `JMP ($02FF)`. -/
theorem test_jmp :
    ends (start flatBus { Params.default with jmpIndPageWrap := false } 0x1000 ⟨0x00, 0x00, 0x00, 0xFF⟩ ⟨false, false, false, false, false, false⟩ [(0x0200#16, 0x56#8), (0x02FF#16, 0x34#8), (0x0300#16, 0x12#8), (0x1000#16, 0x6C#8), (0x1001#16, 0xFF#8), (0x1002#16, 0x02#8)])
      0x1234 ⟨0x00, 0x00, 0x00, 0xFF⟩ ⟨false, false, false, false, false, false⟩ [] = true ∧
    ends (start flatBus { Params.default with jmpIndPageWrap := true } 0x1000 ⟨0x00, 0x00, 0x00, 0xFF⟩ ⟨false, false, false, false, false, false⟩ [(0x0200#16, 0x56#8), (0x02FF#16, 0x34#8), (0x0300#16, 0x12#8), (0x1000#16, 0x6C#8), (0x1001#16, 0xFF#8), (0x1002#16, 0x02#8)])
      0x5634 ⟨0x00, 0x00, 0x00, 0xFF⟩ ⟨false, false, false, false, false, false⟩ [] = true := by decide

/-- V133 `JSR $1234`, V134 `JSR $2000`. -/
theorem test_jsr :
    ends (start flatBus Params.default 0x1000 ⟨0x00, 0x00, 0x00, 0xFF⟩ ⟨false, false, false, false, false, false⟩ [(0x1000#16, 0x20#8), (0x1001#16, 0x34#8), (0x1002#16, 0x12#8)])
      0x1234 ⟨0x00, 0x00, 0x00, 0xFD⟩ ⟨false, false, false, false, false, false⟩ [(0x01FF#16, 0x10#8), (0x01FE#16, 0x02#8)] = true ∧
    ends (start flatBus Params.default 0x1000 ⟨0x00, 0x00, 0x00, 0x00⟩ ⟨false, false, false, false, false, false⟩ [(0x1000#16, 0x20#8), (0x1001#16, 0x00#8), (0x1002#16, 0x20#8)])
      0x2000 ⟨0x00, 0x00, 0x00, 0xFE⟩ ⟨false, false, false, false, false, false⟩ [(0x0100#16, 0x10#8), (0x01FF#16, 0x02#8)] = true := by decide

/-- V8 `LDA ($F0,X)`, V9 `LDA ($FF),Y`. -/
theorem test_lda :
    ends (start flatBus Params.default 0x1000 ⟨0x00, 0x0F, 0x00, 0xFF⟩ ⟨false, false, false, false, false, false⟩ [(0x0000#16, 0x12#8), (0x00FF#16, 0x34#8), (0x0100#16, 0xEE#8), (0x1234#16, 0x77#8), (0x1000#16, 0xA1#8), (0x1001#16, 0xF0#8)])
      0x1002 ⟨0x77, 0x0F, 0x00, 0xFF⟩ ⟨false, false, false, false, false, false⟩ [] = true ∧
    ends (start flatBus Params.default 0x1000 ⟨0x00, 0x00, 0x01, 0xFF⟩ ⟨false, false, false, false, false, false⟩ [(0x0000#16, 0x12#8), (0x00FF#16, 0xFF#8), (0x0100#16, 0xEE#8), (0x1300#16, 0x66#8), (0x1000#16, 0xB1#8), (0x1001#16, 0xFF#8)])
      0x1002 ⟨0x66, 0x00, 0x01, 0xFF⟩ ⟨false, false, false, false, false, false⟩ [] = true := by decide

/-- V4 `LDX $F0,Y`, V19 `LDX $2000,Y`. -/
theorem test_ldx :
    ends (start flatBus Params.default 0x1000 ⟨0x00, 0x00, 0x20, 0xFF⟩ ⟨false, false, false, false, false, false⟩ [(0x0010#16, 0x55#8), (0x0110#16, 0xAA#8), (0x1000#16, 0xB6#8), (0x1001#16, 0xF0#8)])
      0x1002 ⟨0x00, 0x55, 0x20, 0xFF⟩ ⟨false, false, false, false, false, false⟩ [] = true ∧
    ends (start flatBus Params.default 0x1000 ⟨0x00, 0x00, 0xFF, 0xFF⟩ ⟨false, false, false, false, false, false⟩ [(0x20FF#16, 0x01#8), (0x1000#16, 0xBE#8), (0x1001#16, 0x00#8), (0x1002#16, 0x20#8)])
      0x1003 ⟨0x00, 0x01, 0xFF, 0xFF⟩ ⟨false, false, false, false, false, false⟩ [] = true := by decide

/-- V17 `LDY #$00`, V18 `LDY $10,X`. -/
theorem test_ldy :
    ends (start flatBus Params.default 0x1000 ⟨0x00, 0x00, 0x33, 0xFF⟩ ⟨false, false, false, false, false, false⟩ [(0x1000#16, 0xA0#8), (0x1001#16, 0x00#8)])
      0x1002 ⟨0x00, 0x00, 0x00, 0xFF⟩ ⟨false, false, false, false, true, false⟩ [] = true ∧
    ends (start flatBus Params.default 0x1000 ⟨0x00, 0x01, 0x00, 0xFF⟩ ⟨false, false, false, false, false, false⟩ [(0x0011#16, 0x80#8), (0x1000#16, 0xB4#8), (0x1001#16, 0x10#8)])
      0x1002 ⟨0x00, 0x01, 0x80, 0xFF⟩ ⟨true, false, false, false, false, false⟩ [] = true := by decide

/-- V118 `LSR A`, V120 `LSR $10,X`. -/
theorem test_lsr :
    ends (start flatBus Params.default 0x1000 ⟨0x03, 0x00, 0x00, 0xFF⟩ ⟨false, false, false, false, false, false⟩ [(0x1000#16, 0x4A#8)])
      0x1001 ⟨0x01, 0x00, 0x00, 0xFF⟩ ⟨false, false, false, false, false, true⟩ [] = true ∧
    ends (start flatBus Params.default 0x1000 ⟨0x00, 0x01, 0x00, 0xFF⟩ ⟨false, false, false, false, false, false⟩ [(0x0011#16, 0x80#8), (0x1000#16, 0x56#8), (0x1001#16, 0x10#8)])
      0x1002 ⟨0x00, 0x01, 0x00, 0xFF⟩ ⟨false, false, false, false, false, false⟩ [(0x0011#16, 0x40#8)] = true := by decide

/-- V161 `NOP`. -/
theorem test_nop :
    ends (start flatBus Params.default 0x1000 ⟨0x01, 0x02, 0x03, 0xFF⟩ ⟨true, true, true, true, true, true⟩ [(0x1000#16, 0xEA#8)])
      0x1001 ⟨0x01, 0x02, 0x03, 0xFF⟩ ⟨true, true, true, true, true, true⟩ [] = true := by decide

/-- V105 `ORA #$80`, V107 `ORA ($20,X)`. -/
theorem test_ora :
    ends (start flatBus Params.default 0x1000 ⟨0x0F, 0x00, 0x00, 0xFF⟩ ⟨false, false, false, false, false, false⟩ [(0x1000#16, 0x09#8), (0x1001#16, 0x80#8)])
      0x1002 ⟨0x8F, 0x00, 0x00, 0xFF⟩ ⟨true, false, false, false, false, false⟩ [] = true ∧
    ends (start flatBus Params.default 0x1000 ⟨0x01, 0x00, 0x00, 0xFF⟩ ⟨false, false, false, false, false, false⟩ [(0x0020#16, 0x00#8), (0x0021#16, 0x30#8), (0x3000#16, 0x02#8), (0x1000#16, 0x01#8), (0x1001#16, 0x20#8)])
      0x1002 ⟨0x03, 0x00, 0x00, 0xFF⟩ ⟨false, false, false, false, false, false⟩ [] = true := by decide

/-- V37 `PHA`, V38 `PHA`. -/
theorem test_pha :
    ends (start flatBus Params.default 0x1000 ⟨0x12, 0x00, 0x00, 0xFF⟩ ⟨false, false, false, false, false, false⟩ [(0x1000#16, 0x48#8)])
      0x1001 ⟨0x12, 0x00, 0x00, 0xFE⟩ ⟨false, false, false, false, false, false⟩ [(0x01FF#16, 0x12#8)] = true ∧
    ends (start flatBus Params.default 0x1000 ⟨0x34, 0x00, 0x00, 0x00⟩ ⟨false, false, false, false, false, false⟩ [(0x1000#16, 0x48#8)])
      0x1001 ⟨0x34, 0x00, 0x00, 0xFF⟩ ⟨false, false, false, false, false, false⟩ [(0x0100#16, 0x34#8)] = true := by decide

/-- V39 `PHP`, V40 `PHP`. -/
theorem test_php :
    ends (start flatBus Params.default 0x1000 ⟨0x00, 0x00, 0x00, 0xFF⟩ ⟨false, false, false, true, true, true⟩ [(0x1000#16, 0x08#8)])
      0x1001 ⟨0x00, 0x00, 0x00, 0xFE⟩ ⟨false, false, false, true, true, true⟩ [(0x01FF#16, 0x37#8)] = true ∧
    ends (start flatBus Params.default 0x1000 ⟨0x00, 0x00, 0x00, 0xFF⟩ ⟨true, true, true, false, false, false⟩ [(0x1000#16, 0x08#8)])
      0x1001 ⟨0x00, 0x00, 0x00, 0xFE⟩ ⟨true, true, true, false, false, false⟩ [(0x01FF#16, 0xF8#8)] = true := by decide

/-- V41 `PLA`, V42 `PLA`. -/
theorem test_pla :
    ends (start flatBus Params.default 0x1000 ⟨0x55, 0x00, 0x00, 0xFE⟩ ⟨false, false, false, false, false, false⟩ [(0x01FF#16, 0x00#8), (0x1000#16, 0x68#8)])
      0x1001 ⟨0x00, 0x00, 0x00, 0xFF⟩ ⟨false, false, false, false, true, false⟩ [] = true ∧
    ends (start flatBus Params.default 0x1000 ⟨0x00, 0x00, 0x00, 0xFF⟩ ⟨false, false, false, false, false, false⟩ [(0x0100#16, 0x80#8), (0x1000#16, 0x68#8)])
      0x1001 ⟨0x80, 0x00, 0x00, 0x00⟩ ⟨true, false, false, false, false, false⟩ [] = true := by decide

/-- V43 `PLP`, V44 `PLP`. -/
theorem test_plp :
    ends (start flatBus Params.default 0x1000 ⟨0x00, 0x00, 0x00, 0xFE⟩ ⟨false, false, false, false, false, false⟩ [(0x01FF#16, 0xC3#8), (0x1000#16, 0x28#8)])
      0x1001 ⟨0x00, 0x00, 0x00, 0xFF⟩ ⟨true, true, false, false, true, true⟩ [] = true ∧
    ends (start flatBus Params.default 0x1000 ⟨0x00, 0x00, 0x00, 0xFE⟩ ⟨true, true, true, true, true, true⟩ [(0x01FF#16, 0x30#8), (0x1000#16, 0x28#8)])
      0x1001 ⟨0x00, 0x00, 0x00, 0xFF⟩ ⟨false, false, false, false, false, false⟩ [] = true := by decide

/-- V122 `ROL A`, V124 `ROL $10`. -/
theorem test_rol :
    ends (start flatBus Params.default 0x1000 ⟨0x80, 0x00, 0x00, 0xFF⟩ ⟨false, false, false, false, false, true⟩ [(0x1000#16, 0x2A#8)])
      0x1001 ⟨0x01, 0x00, 0x00, 0xFF⟩ ⟨false, false, false, false, false, true⟩ [] = true ∧
    ends (start flatBus Params.default 0x1000 ⟨0x00, 0x00, 0x00, 0xFF⟩ ⟨false, false, false, false, false, true⟩ [(0x0010#16, 0x7F#8), (0x1000#16, 0x26#8), (0x1001#16, 0x10#8)])
      0x1002 ⟨0x00, 0x00, 0x00, 0xFF⟩ ⟨true, false, false, false, false, false⟩ [(0x0010#16, 0xFF#8)] = true := by decide

/-- V126 `ROR A`, V128 `ROR $10,X`. -/
theorem test_ror :
    ends (start flatBus Params.default 0x1000 ⟨0x01, 0x00, 0x00, 0xFF⟩ ⟨false, false, false, false, false, true⟩ [(0x1000#16, 0x6A#8)])
      0x1001 ⟨0x80, 0x00, 0x00, 0xFF⟩ ⟨true, false, false, false, false, true⟩ [] = true ∧
    ends (start flatBus Params.default 0x1000 ⟨0x00, 0x00, 0x00, 0xFF⟩ ⟨false, false, false, false, false, true⟩ [(0x0010#16, 0x00#8), (0x1000#16, 0x76#8), (0x1001#16, 0x10#8)])
      0x1002 ⟨0x00, 0x00, 0x00, 0xFF⟩ ⟨true, false, false, false, false, false⟩ [(0x0010#16, 0x80#8)] = true := by decide

/-- V152 `RTI`, V153 `RTI`. -/
theorem test_rti :
    ends (start flatBus Params.default 0x9000 ⟨0x00, 0x00, 0x00, 0xFC⟩ ⟨false, false, false, true, false, false⟩ [(0x01FD#16, 0x30#8), (0x01FE#16, 0x02#8), (0x01FF#16, 0x10#8), (0x9000#16, 0x40#8)])
      0x1002 ⟨0x00, 0x00, 0x00, 0xFF⟩ ⟨false, false, false, false, false, false⟩ [] = true ∧
    ends (start flatBus Params.default 0x9000 ⟨0x00, 0x00, 0x00, 0xFC⟩ ⟨false, false, false, false, false, false⟩ [(0x01FD#16, 0xCF#8), (0x01FE#16, 0xFF#8), (0x01FF#16, 0xFF#8), (0x9000#16, 0x40#8)])
      0xFFFF ⟨0x00, 0x00, 0x00, 0xFF⟩ ⟨true, true, true, true, true, true⟩ [] = true := by decide

/-- V136 `RTS`, V137 `RTS`. -/
theorem test_rts :
    ends (start flatBus Params.default 0x1234 ⟨0x00, 0x00, 0x00, 0xFD⟩ ⟨false, false, false, false, false, false⟩ [(0x01FE#16, 0x02#8), (0x01FF#16, 0x10#8), (0x1234#16, 0x60#8)])
      0x1003 ⟨0x00, 0x00, 0x00, 0xFF⟩ ⟨false, false, false, false, false, false⟩ [] = true ∧
    ends (start flatBus Params.default 0x1000 ⟨0x00, 0x00, 0x00, 0xFD⟩ ⟨false, false, false, false, false, false⟩ [(0x01FE#16, 0xFF#8), (0x01FF#16, 0xFF#8), (0x1000#16, 0x60#8)])
      0x0000 ⟨0x00, 0x00, 0x00, 0xFF⟩ ⟨false, false, false, false, false, false⟩ [] = true := by decide

/-- V61 `SBC #$01`, V71 `SBC #$12`. -/
theorem test_sbc :
    ends (start flatBus Params.default 0x1000 ⟨0x80, 0x00, 0x00, 0xFF⟩ ⟨false, false, false, false, false, true⟩ [(0x1000#16, 0xE9#8), (0x1001#16, 0x01#8)])
      0x1002 ⟨0x7F, 0x00, 0x00, 0xFF⟩ ⟨false, true, false, false, false, true⟩ [] = true ∧
    ends (start flatBus { Params.default with decimalArith := .bcdNmos } 0x1000 ⟨0x46, 0x00, 0x00, 0xFF⟩ ⟨false, false, true, false, false, true⟩ [(0x1000#16, 0xE9#8), (0x1001#16, 0x12#8)])
      0x1002 ⟨0x34, 0x00, 0x00, 0xFF⟩ ⟨false, false, true, false, false, true⟩ [] = true := by decide

/-- V155 `SEC`. -/
theorem test_sec :
    ends (start flatBus Params.default 0x1000 ⟨0x00, 0x00, 0x00, 0xFF⟩ ⟨false, false, false, false, false, false⟩ [(0x1000#16, 0x38#8)])
      0x1001 ⟨0x00, 0x00, 0x00, 0xFF⟩ ⟨false, false, false, false, false, true⟩ [] = true := by decide

/-- V159 `SED`. -/
theorem test_sed :
    ends (start flatBus Params.default 0x1000 ⟨0x00, 0x00, 0x00, 0xFF⟩ ⟨false, false, false, false, false, false⟩ [(0x1000#16, 0xF8#8)])
      0x1001 ⟨0x00, 0x00, 0x00, 0xFF⟩ ⟨false, false, true, false, false, false⟩ [] = true := by decide

/-- V157 `SEI`. -/
theorem test_sei :
    ends (start flatBus Params.default 0x1000 ⟨0x00, 0x00, 0x00, 0xFF⟩ ⟨false, false, false, false, false, false⟩ [(0x1000#16, 0x78#8)])
      0x1001 ⟨0x00, 0x00, 0x00, 0xFF⟩ ⟨false, false, false, true, false, false⟩ [] = true := by decide

/-- V21 `STA $8000`, V22 `STA $10,X`. -/
theorem test_sta :
    ends (start flatBus Params.default 0x1000 ⟨0x41, 0x00, 0x00, 0xFF⟩ ⟨true, false, false, false, true, false⟩ [(0x1000#16, 0x8D#8), (0x1001#16, 0x00#8), (0x1002#16, 0x80#8)])
      0x1003 ⟨0x41, 0x00, 0x00, 0xFF⟩ ⟨true, false, false, false, true, false⟩ [(0x8000#16, 0x41#8)] = true ∧
    ends (start flatBus Params.default 0x1000 ⟨0x99, 0xF5, 0x00, 0xFF⟩ ⟨false, false, false, false, false, false⟩ [(0x1000#16, 0x95#8), (0x1001#16, 0x10#8)])
      0x1002 ⟨0x99, 0xF5, 0x00, 0xFF⟩ ⟨false, false, false, false, false, false⟩ [(0x0005#16, 0x99#8)] = true := by decide

/-- V27 `STX $10,Y`, V28 `STX $3000`. -/
theorem test_stx :
    ends (start flatBus Params.default 0x1000 ⟨0x00, 0x07, 0x01, 0xFF⟩ ⟨false, false, false, false, false, false⟩ [(0x1000#16, 0x96#8), (0x1001#16, 0x10#8)])
      0x1002 ⟨0x00, 0x07, 0x01, 0xFF⟩ ⟨false, false, false, false, false, false⟩ [(0x0011#16, 0x07#8)] = true ∧
    ends (start flatBus Params.default 0x1000 ⟨0x00, 0x80, 0x00, 0xFF⟩ ⟨false, false, false, false, false, false⟩ [(0x1000#16, 0x8E#8), (0x1001#16, 0x00#8), (0x1002#16, 0x30#8)])
      0x1003 ⟨0x00, 0x80, 0x00, 0xFF⟩ ⟨false, false, false, false, false, false⟩ [(0x3000#16, 0x80#8)] = true := by decide

/-- V29 `STY $20`, V30 `STY $20,X`. -/
theorem test_sty :
    ends (start flatBus Params.default 0x1000 ⟨0x00, 0x00, 0x02, 0xFF⟩ ⟨false, false, false, false, false, false⟩ [(0x1000#16, 0x84#8), (0x1001#16, 0x20#8)])
      0x1002 ⟨0x00, 0x00, 0x02, 0xFF⟩ ⟨false, false, false, false, false, false⟩ [(0x0020#16, 0x02#8)] = true ∧
    ends (start flatBus Params.default 0x1000 ⟨0x00, 0xFF, 0x03, 0xFF⟩ ⟨false, false, false, false, false, false⟩ [(0x1000#16, 0x94#8), (0x1001#16, 0x20#8)])
      0x1002 ⟨0x00, 0xFF, 0x03, 0xFF⟩ ⟨false, false, false, false, false, false⟩ [(0x001F#16, 0x03#8)] = true := by decide

/-- V31 `TAX`. -/
theorem test_tax :
    ends (start flatBus Params.default 0x1000 ⟨0x00, 0x55, 0x00, 0xFF⟩ ⟨false, false, false, false, false, false⟩ [(0x1000#16, 0xAA#8)])
      0x1001 ⟨0x00, 0x00, 0x00, 0xFF⟩ ⟨false, false, false, false, true, false⟩ [] = true := by decide

/-- V32 `TAY`. -/
theorem test_tay :
    ends (start flatBus Params.default 0x1000 ⟨0x90, 0x00, 0x00, 0xFF⟩ ⟨false, false, false, false, false, false⟩ [(0x1000#16, 0xA8#8)])
      0x1001 ⟨0x90, 0x00, 0x90, 0xFF⟩ ⟨true, false, false, false, false, false⟩ [] = true := by decide

/-- V35 `TSX`. -/
theorem test_tsx :
    ends (start flatBus Params.default 0x1000 ⟨0x00, 0x00, 0x00, 0xFD⟩ ⟨false, false, false, false, false, false⟩ [(0x1000#16, 0xBA#8)])
      0x1001 ⟨0x00, 0xFD, 0x00, 0xFD⟩ ⟨true, false, false, false, false, false⟩ [] = true := by decide

/-- V33 `TXA`. -/
theorem test_txa :
    ends (start flatBus Params.default 0x1000 ⟨0x80, 0x7F, 0x00, 0xFF⟩ ⟨true, false, false, false, false, false⟩ [(0x1000#16, 0x8A#8)])
      0x1001 ⟨0x7F, 0x7F, 0x00, 0xFF⟩ ⟨false, false, false, false, false, false⟩ [] = true := by decide

/-- V36 `TXS`. -/
theorem test_txs :
    ends (start flatBus Params.default 0x1000 ⟨0x00, 0x00, 0x00, 0xFF⟩ ⟨true, false, false, false, false, false⟩ [(0x1000#16, 0x9A#8)])
      0x1001 ⟨0x00, 0x00, 0x00, 0x00⟩ ⟨true, false, false, false, false, false⟩ [] = true := by decide

/-- V34 `TYA`. -/
theorem test_tya :
    ends (start flatBus Params.default 0x1000 ⟨0x00, 0x00, 0xFF, 0xFF⟩ ⟨false, false, false, false, false, false⟩ [(0x1000#16, 0x98#8)])
      0x1001 ⟨0xFF, 0x00, 0xFF, 0xFF⟩ ⟨true, false, false, false, false, false⟩ [] = true := by decide

/-! ## Faults and the refusal of `95_test_vectors.md` section 2 -/

/-- V76 `ADC #$46`. -/
theorem test_v76 :
    isRefused (step (start flatBus { Params.default with decimalArith := .refuse } 0x1000 ⟨0x58, 0x00, 0x00, 0xFF⟩ ⟨false, false, true, false, false, true⟩ [(0x1000#16, 0x69#8), (0x1001#16, 0x46#8)]))
      (.decimalArithmetic .ADC) = true := by decide

/-- V77 `SBC #$12`. -/
theorem test_v77 :
    isRefused (step (start flatBus { Params.default with decimalArith := .refuse } 0x1000 ⟨0x46, 0x00, 0x00, 0xFF⟩ ⟨false, false, true, false, false, true⟩ [(0x1000#16, 0xE9#8), (0x1001#16, 0x12#8)]))
      (.decimalArithmetic .SBC) = true := by decide

/-- V162 `.byte $02`. -/
theorem test_v162 :
    isFault (step (start mapB Params.default 0x1000 ⟨0x00, 0x00, 0x00, 0xFF⟩ ⟨false, false, false, false, false, false⟩ [(0x1000#16, 0x02#8)]))
      (.unknownOpcode 0x1000#16 0x02#8) = true := by decide

/-- V163 `.byte $FF`. -/
theorem test_v163 :
    isFault (step (start mapB Params.default 0x7FFF ⟨0x00, 0x00, 0x00, 0xFF⟩ ⟨false, false, false, false, false, false⟩ [(0x7FFF#16, 0xFF#8)]))
      (.unknownOpcode 0x7FFF#16 0xFF#8) = true := by decide

/-- V164 `LDA #$01`. -/
theorem test_v164 :
    isFault (step (start mapB Params.default 0x7FFF ⟨0x00, 0x00, 0x00, 0xFF⟩ ⟨false, false, false, false, false, false⟩ [(0x7FFF#16, 0xA9#8)]))
      (.unmappedAddress 0x8000#16 .read ⟨some 0x7FFF#16, some 0xA9#8⟩) = true := by decide

/-- V165 `(none: `PC` points at a hole)`. -/
theorem test_v165 :
    isFault (step (start mapB Params.default 0x8000 ⟨0x00, 0x00, 0x00, 0xFF⟩ ⟨false, false, false, false, false, false⟩ []))
      (.unmappedAddress 0x8000#16 .read ⟨some 0x8000#16, none⟩) = true := by decide

/-- V166 `LDA $9000`. -/
theorem test_v166 :
    isFault (step (start mapB Params.default 0x1000 ⟨0x80, 0x00, 0x00, 0xFF⟩ ⟨true, false, false, false, false, false⟩ [(0x1000#16, 0xAD#8), (0x1001#16, 0x00#8), (0x1002#16, 0x90#8)]))
      (.unmappedAddress 0x9000#16 .read ⟨some 0x1000#16, some 0xAD#8⟩) = true := by decide

/-- V167 `STA $9000`. -/
theorem test_v167 :
    isFault (step (start mapB Params.default 0x1000 ⟨0x55, 0x00, 0x00, 0xFF⟩ ⟨false, false, false, false, false, false⟩ [(0x1000#16, 0x8D#8), (0x1001#16, 0x00#8), (0x1002#16, 0x90#8)]))
      (.unmappedAddress 0x9000#16 .write ⟨some 0x1000#16, some 0x8D#8⟩) = true := by decide

/-- V168 `LDA ($20),Y`. -/
theorem test_v168 :
    isFault (step (start mapB Params.default 0x1000 ⟨0x00, 0x00, 0x01, 0xFF⟩ ⟨false, false, false, false, false, false⟩ [(0x0020#16, 0xFF#8), (0x0021#16, 0x7F#8), (0x1000#16, 0xB1#8), (0x1001#16, 0x20#8)]))
      (.unmappedAddress 0x8000#16 .read ⟨some 0x1000#16, some 0xB1#8⟩) = true := by decide

/-- V169 `STA $F000`. -/
theorem test_v169 :
    isFault (step (start mapB { Params.default with romWrite := .fault } 0x1000 ⟨0x55, 0x00, 0x00, 0xFF⟩ ⟨false, false, false, false, false, false⟩ [(0x1000#16, 0x8D#8), (0x1001#16, 0x00#8), (0x1002#16, 0xF0#8)]))
      (.romWrite 0xF000#16 0x55#8 ⟨some 0x1000#16, some 0x8D#8⟩) = true := by decide

/-- V171 `INC $F000`. -/
theorem test_v171 :
    isFault (step (start mapB { Params.default with romWrite := .fault } 0x1000 ⟨0x00, 0x00, 0x00, 0xFF⟩ ⟨false, false, false, false, true, false⟩ [(0xF000#16, 0xFF#8), (0x1000#16, 0xEE#8), (0x1001#16, 0x00#8), (0x1002#16, 0xF0#8)]))
      (.romWrite 0xF000#16 0x00#8 ⟨some 0x1000#16, some 0xEE#8⟩) = true := by decide

/-- V173 `JSR $0300`. -/
theorem test_v173 :
    isFault (step (start mapC Params.default 0x1000 ⟨0x00, 0x00, 0x00, 0xFF⟩ ⟨false, false, false, false, false, false⟩ [(0x1000#16, 0x20#8), (0x1001#16, 0x00#8), (0x1002#16, 0x03#8)]))
      (.unmappedAddress 0x01FF#16 .write ⟨some 0x1000#16, some 0x20#8⟩) = true := by decide

/-- V174 `JSR $0300`. -/
theorem test_v174 :
    isFault (step (start mapD Params.default 0x1000 ⟨0x00, 0x00, 0x00, 0x00⟩ ⟨false, false, false, false, false, false⟩ [(0x1000#16, 0x20#8), (0x1001#16, 0x00#8), (0x1002#16, 0x03#8)]))
      (.unmappedAddress 0x01FF#16 .write ⟨some 0x1000#16, some 0x20#8⟩) = true := by decide

/-- V175 `PLA`. -/
theorem test_v175 :
    isFault (step (start mapD Params.default 0x1000 ⟨0x00, 0x00, 0x00, 0xFE⟩ ⟨false, false, false, false, false, false⟩ [(0x1000#16, 0x68#8)]))
      (.unmappedAddress 0x01FF#16 .read ⟨some 0x1000#16, some 0x68#8⟩) = true := by decide

/-- V176 `BRK`. -/
theorem test_v176 :
    isFault (step (start mapE Params.default 0x1000 ⟨0x00, 0x00, 0x00, 0xFF⟩ ⟨false, false, false, false, false, true⟩ [(0x1000#16, 0x00#8), (0x1001#16, 0x00#8)]))
      (.unmappedAddress 0xFFFE#16 .read ⟨some 0x1000#16, some 0x00#8⟩) = true := by decide

/-- V177 `LDA $10`. -/
theorem test_v177 :
    isFault (step (start mapC Params.default 0x1000 ⟨0x00, 0x00, 0x00, 0xFF⟩ ⟨false, false, false, false, false, false⟩ [(0x1000#16, 0xA5#8), (0x1001#16, 0x10#8)]))
      (.unmappedAddress 0x0010#16 .read ⟨some 0x1000#16, some 0xA5#8⟩) = true := by decide

/-! ## Attach (`95_test_vectors.md` section 3.1) -/

/-- The table of VB1. -/
def tableVB1 : List Binding := [⟨"ram", 0x0000#16, .ram 0x1000#16⟩, ⟨"rom", 0xF000#16, .rom 0x1000#16⟩]

/-- `attach` gives this table. -/
def attaches (r : Except AttachError (List Binding)) (t : List Binding) : Bool :=
  match r with
  | .ok u => u == t
  | .error _ => false

/-- `attach` fails with this error. -/
def attachFails (r : Except AttachError (List Binding)) (e : AttachError) : Bool :=
  match r with
  | .ok _ => false
  | .error f => f == e

/-- VB1, VB3, VB9: ranges are half-open and may end at 0x10000. -/
theorem test_attach :
    attaches (attach (.rom 0x1000#16) "rom" 0xF000#16 [⟨"ram", 0x0000#16, .ram 0x1000#16⟩]) tableVB1 = true ∧
    attaches (attach (.ram 0x0010#16) "x" 0x1000#16 tableVB1) (tableVB1 ++ [⟨"x", 0x1000#16, .ram 0x0010#16⟩]) = true ∧
    attaches (attach (.ram 0x0004#16) "x" 0xFFFC#16 []) [⟨"x", 0xFFFC#16, .ram 0x0004#16⟩] = true := by decide

/-- The bindings of `tableVB1`. -/
def bRam : Binding := ⟨"ram", 0x0000#16, .ram 0x1000#16⟩

/-- The ROM of `tableVB1`. -/
def bRom : Binding := ⟨"rom", 0xF000#16, .rom 0x1000#16⟩

/-- A binding to attach. -/
def bNew (base : Addr) (d : Device) : Binding := ⟨"x", base, d⟩

/-- VB2, VB4, VB5, VB6, VB7, VB8: the errors record the bindings (`60_exceptions.md` R292). -/
theorem test_attach_fails :
    attachFails (attach (.ram 0x0001#16) "x" 0x0FFF#16 tableVB1) (.overlap (bNew 0x0FFF#16 (.ram 0x0001#16)) bRam) = true ∧
    attachFails (attach (.acia (Acia.powerOn (Peripheral.unscripted 0))) "x" 0xEFFD#16 tableVB1)
      (.overlap (bNew 0xEFFD#16 (.acia (Acia.powerOn (Peripheral.unscripted 0)))) bRom) = true ∧
    attachFails (attach (.ram 0x0001#16) "x" 0xFFFF#16 tableVB1) (.overlap (bNew 0xFFFF#16 (.ram 0x0001#16)) bRom) = true ∧
    attachFails (attach (.ram 0x1000#16) "x" 0x0800#16 tableVB1) (.overlap (bNew 0x0800#16 (.ram 0x1000#16)) bRam) = true ∧
    attachFails (attach (.ram 0x0020#16) "x" 0xFFF0#16 []) (.configuration (bNew 0xFFF0#16 (.ram 0x0020#16))) = true ∧
    attachFails (attach (.ram 0x0000#16) "x" 0x2000#16 []) (.configuration (bNew 0x2000#16 (.ram 0x0000#16))) = true := by
  decide

/-! ## ACIA (section 3.2) -/

/-- An ACIA with a scripted peripheral. -/
def aciaWith (c : Capability) (reads : List PeripheralRead) (writes : List PeripheralWrite) : Acia :=
  Acia.powerOn ⟨0, c, reads, writes, 0, []⟩

/-- The eight fields of a vector row and its status byte. -/
def aciaRow (d : Acia) : List Byte × List Bool × Byte :=
  ([d.rx, d.tx, d.command, d.control], [d.rxFull, d.txEmpty, d.overrun, d.rxIrqEnabled, d.txIrqEnabled],
    d.status Params.default)

/-- The ACIA after a read of a register. -/
def readOf (r : AciaRegister) (d : Acia) : Acia := (d.read Params.default r).2

/-- VA1: a pulled byte, then nothing, then an error. -/
theorem test_acia_data_read :
    let d := aciaWith .bidirectional [.got 0x41#8, .nothing, .error] []
    let row : List Byte × List Bool × Byte := ([0x41#8, 0#8, 0#8, 0#8], [false, true, false, false, false], 0x10#8)
    (d.read Params.default .data).1 = 0x41#8 ∧ aciaRow (readOf .data d) = row ∧
    aciaRow (readOf .data (readOf .data d)) = row ∧ aciaRow (readOf .data (readOf .data (readOf .data d))) = row := by
  decide

/-- VA2: accepted, rejected, error. -/
theorem test_acia_data_write :
    let d := aciaWith .bidirectional [] [.accepted, .rejected, .error]
    let d1 := d.write Params.default 0x48#8 .data
    let d2 := d1.write Params.default 0x49#8 .data
    let d3 := d2.write Params.default 0x4A#8 .data
    aciaRow d1 = ([0#8, 0x48#8, 0#8, 0#8], [false, true, false, false, false], 0x10#8) ∧
    aciaRow d2 = ([0#8, 0x49#8, 0#8, 0#8], [false, false, false, false, false], 0x00#8) ∧
    aciaRow d3 = ([0#8, 0x4A#8, 0#8, 0#8], [false, true, false, false, false], 0x10#8) ∧
    d3.peripheral.sent = [0x48#8, 0x49#8, 0x4A#8] := by decide

/-- VA3 steps 1, 3, 4, 5, 8. -/
theorem test_acia_command_control_reset :
    let d := aciaWith .bidirectional [] []
    let d4 := d.write Params.default 0x02#8 .command
    let d5 := d4.write Params.default 0x1F#8 .control
    aciaRow (d.write Params.default 0x06#8 .command) =
      ([0#8, 0#8, 0x06#8, 0#8], [false, true, false, true, true], 0x10#8) ∧
    aciaRow (d.write Params.default 0x09#8 .command) =
      ([0#8, 0#8, 0x09#8, 0#8], [false, true, false, false, false], 0x10#8) ∧
    aciaRow d5 = ([0#8, 0#8, 0x02#8, 0x1F#8], [false, true, false, true, false], 0x10#8) ∧
    d5.write Params.default 0xA7#8 .status = d := by decide

/-- VA4 steps 1 and 3, VA5 steps 1 and 2: capabilities `read` and `none`. -/
theorem test_acia_capabilities :
    aciaRow ((aciaWith .read [.got 0x0D#8] []).write Params.default 0x58#8 .data) =
      ([0#8, 0x58#8, 0#8, 0#8], [false, false, false, false, false], 0x00#8) ∧
    ((aciaWith .read [.got 0x0D#8] []).read Params.default .data).1 = 0x0D#8 ∧
    readOf .data (aciaWith .none [] []) = aciaWith .none [] [] ∧
    ((aciaWith .none [] []).write Params.default 0x58#8 .data).txEmpty = false := by decide

/-- VA6: receive, overrun, the clearing data read, then a pull. -/
theorem test_acia_receive :
    let d := aciaWith .bidirectional [.got 0x7A#8] []
    let d3 := (d.receive 0x0D#8).receive 0x0A#8
    aciaRow (d.receive 0x0D#8) = ([0x0D#8, 0#8, 0#8, 0#8], [true, true, false, false, false], 0x18#8) ∧
    aciaRow d3 = ([0x0A#8, 0#8, 0#8, 0#8], [true, true, true, false, false], 0x1C#8) ∧
    aciaRow (readOf .data d3) = ([0x0A#8, 0#8, 0#8, 0#8], [false, true, false, false, false], 0x10#8) ∧
    ((readOf .data d3).read Params.default .data).1 = 0x7A#8 := by decide

/-! ## SPI (section 3.3) -/

/-- A slave after writes of these port bytes, from power-on. -/
def spiAfter (responses : List (List Byte)) (ports : List Byte) : Spi :=
  ports.foldl (fun p b => (p.write Params.default b).2) (Spi.powerOn 0x8010 responses)

/-- VS1 writes 1 and 2; VS2's falling edge (write 18) keeps all but the clock and the port byte. -/
theorem test_spi_edges :
    ((Spi.powerOn 0x8010 []).write Params.default 0x02#8).1 = false ∧
    ((spiAfter [] [0x02#8]).write Params.default 0x03#8).1 = true ∧
    spiAfter [] [0x02#8, 0x03#8] =
      ⟨0x8010, 0x01#8, 0x00#8, 1, false, true, false, 0x03#8, [0x00#8, 0xFF#8], [], []⟩ ∧
    spiAfter [] [0x02#8, 0x03#8, 0x00#8] =
      ⟨0x8010, 0x01#8, 0x00#8, 1, false, false, false, 0x00#8, [0x00#8, 0xFF#8], [], []⟩ := by decide

/-- VS1 to write 16 (`SD_RESPONSE` answers `[]`): the byte 0xA5 is assembled. -/
theorem test_spi_byte : sendBits Params.default 0xA5#8 8 (Spi.powerOn 0x8010 [[]]) =
    ⟨0x8010, 0xA5#8, 0x00#8, 0, true, true, false, 0x03#8, [0x00#8, 0xFF#8], [0xA5#8], []⟩ := by decide

/-- VS3 exchange 1 queues nothing for an idle 0xFF; VS4 exchange 1 queues the response behind the seed. -/
theorem test_spi_response :
    (sendBits Params.default 0xFF#8 8 (Spi.powerOn 0x8010 [])).misoQueue = [0x00#8, 0xFF#8] ∧
    (sendBits Params.default 0x40#8 8 (Spi.powerOn 0x8010 [[0x01#8]])).misoQueue = [0x00#8, 0xFF#8, 0x01#8] := by decide

/-- VS3 exchange 4 and VS4 exchange 4: the filler and the queued answer on the line after the eighth edge. -/
theorem test_spi_filler :
    let p : Spi := { Spi.powerOn 0x8010 [] with misoQueue := [] }
    (sendBits Params.default 0xFF#8 1 p).misoLine = true ∧ (sendBits Params.default 0xFF#8 8 p).misoQueue = [] ∧
    (sendBits Params.default 0xFF#8 8 { p with misoQueue := [0x01#8] }).misoLine = true ∧
    (sendBits Params.default 0xFF#8 7 { p with misoQueue := [0x01#8] }).misoLine = false := by decide

/-- VS5: the port read of the default binding. -/
theorem test_spi_port :
    (spiAfter [] []).readPort Params.default = 0x80#8 ∧ (spiAfter [] [0x7E#8]).readPort Params.default = 0xFE#8 ∧
    (spiAfter [] [0x7E#8, 0xFF#8]).readPort Params.default = 0x7F#8 := by decide

/-- A bridge of two bytes at 0x8010 that gives two port bytes in its first access and answers 0x5A. -/
def onBridge : State :=
  { State.reset with
    bus := [⟨"via", 0x8010#16, .bridge ⟨0x0002#16, Spi.powerOn 0x8010 [], [⟨[0x02#8, 0x03#8], 0x5A#8⟩], []⟩⟩] }

/-- The slave behind a bridge follows its own rules (`47_spi_slave.md` R254): the port bytes 0x02, 0x03 leave the slave
of VS1 after writes 1 and 2. -/
theorem test_spi_bridge :
    busRead 0x8011#16 onBridge = .ok 0x5A#8
      { onBridge with
        bus := [⟨"via", 0x8010#16, .bridge ⟨0x0002#16, spiAfter [] [0x02#8, 0x03#8], [],
          [⟨1, none, [⟨false, 0x00#8, true⟩, ⟨false, 0x00#8, true⟩, ⟨false, 0x01#8, false⟩]⟩]⟩⟩] } := by decide

/-! ## The bus with devices, VB10 to VB12, and the debugger, section 3.4 -/

/-- Map P with these bytes in ROM at 0xF000, the vector there, `PC` at `pc`, DBG attached, `lines` given by the host. -/
def onP (pc : Addr) (code : List Byte) (lines : List String) : State :=
  { State.reset with
    pc := pc
    mem := (Memory.load [] 0xF000#16 code).load 0xFFFC#16 [0x00#8, 0xF0#8]
    commands := lines.map String.toList }

/-- The value and the state of a bus access that completes. -/
def resultOf {α : Type} : Res α → Option (α × State)
  | .ok v s => some (v, s)
  | .fault _ _ => none

/-- The ACIA at 0x8000 in map P answers at its local offset; past a device and before it there is nothing. -/
theorem test_bus_offsets :
    (resultOf (busRead 0x8001#16 State.reset)).map Prod.fst = some 0x10#8 ∧
    (resultOf (busWrite 0x8002#16 0x55#8 State.reset)).map (fun r => (resultOf (busRead 0x8002#16 r.2)).map Prod.fst) =
      some (some 0x55#8) ∧
    resultOf (busRead 0x8004#16 State.reset) = none ∧ resultOf (busWrite 0x7FFF#16 0x00#8 State.reset) ≠ none ∧
    resultOf (busWrite 0xEFFF#16 0x00#8 State.reset) = none := by decide

/-- What a step shows of the debugger: the run state, `PC`, `X` and free-run. -/
def shown (o : Outcome) : Option (RunState × Addr × Byte × Bool) :=
  match o with
  | .next t => some (t.run, t.pc, t.x, t.dbg.freeRun)
  | .fault _ => none
  | .refused _ => none

/-- VD1 event 1: the first hook pauses. -/
theorem test_debugger_first_pause :
    shown (step (onP 0xF000#16 [0xA2#8, 0xFF#8] [])) = some (.paused (.ldxImm 0xFF#8) [] false, 0xF000#16, 0x00#8, false) := by
  decide

/-- VD1 event 3: `continue` releases and the instruction executes. -/
theorem test_debugger_continue :
    shown (step { onP 0xF000#16 [0xA2#8, 0xFF#8] ["continue"] with run := .paused (.ldxImm 0xFF#8) [] false }) =
      some (.running, 0xF002#16, 0xFF#8, true) := by decide

/-- VD1 event 2: `break-register x $ff` arms the trigger and does not release. -/
theorem test_debugger_break_register :
    takeLine (.ldxImm 0xFF#8) "break-register x $ff".toList (onP 0xF000#16 [] []) =
      .stay { onP 0xF000#16 [] [] with
        dbg := { Dbg.powerOn with bpX := ⟨true, 0xFF#8⟩, lastCommand := some "break-register x $ff".toList } } := by decide

/-- VD1 event 4: the register trigger pauses the free-running machine; the notice text is the source's. -/
theorem test_debugger_register_hit :
    let s := { onP 0xF002#16 [0xA2#8, 0xFF#8, 0xEA#8] [] with
      x := 0xFF#8, dbg := { Dbg.powerOn with bpX := ⟨true, 0xFF#8⟩, freeRun := true } }
    shown (step s) = some (.paused .nop [] false, 0xF002#16, 0xFF#8, false) ∧ notices .nop s = [.registerNotice .X 0xFF#8] ∧
    registerNoticeText .X 0xFF#8 = "Breakpoint for X = $FF (255)".toList := by decide

/-- VD2 events 4 and 6: `next` arms the one-shot at `PC + 3`; its hit consumes it. -/
theorem test_debugger_step_over :
    runCommand (.jsr 0xF009#16) .stepOver (onP 0xF002#16 [] []) =
      .release { onP 0xF002#16 [] [] with
        dbg := { Dbg.powerOn with bpAddr := ⟨true, 0xF005#16, true⟩, freeRun := true } } ∧
    (evaluate .nop { onP 0xF005#16 [] [] with
      dbg := { Dbg.powerOn with bpAddr := ⟨true, 0xF005#16, true⟩, freeRun := true } }).dbg =
        { Dbg.powerOn with bpAddr := ⟨false, 0xF005#16, true⟩ } := by decide

/-- VD2 event 9, VD7: `q` halts with status 0 and the instruction does not execute. -/
theorem test_debugger_exit :
    shown (step { onP 0xF006#16 [] ["q"] with run := .paused (.jmpAbs 0xF009#16) [] false }) =
      some (.halted 0, 0xF006#16, 0x00#8, false) := by decide

/-- `exit` with an observer attached after DBG: the observer is called, then the machine halts and the instruction does not
execute (the pseudocode of `30_encoding.md` R80). -/
theorem test_debugger_exit_calls_later_monitors :
    step { onP 0xF006#16 [] ["q"] with run := .paused (.ldxImm 0xFF#8) [.observer 7] false } =
      .next { onP 0xF006#16 [] [] with
        run := .halted 0, haltStatus := some 0, trace := [.observed 7 (Instr.ldxImm 0xFF#8).record],
        dbg := { Dbg.powerOn with lastCommand := some ['q'] } } := rfl

/-- VD3's symbols. -/
def paramsVD3 : Params :=
  { Params.default with
    symbols := [⟨"loop".toList, 0xF003#16⟩, ⟨"done".toList, 0xF008#16⟩, ⟨"dup".toList, 0xF000#16⟩, ⟨"dup".toList, 0xF003#16⟩] }

/-- VD3 events 2 to 6 and 12 to 14. -/
theorem test_debugger_grammar :
    parseCommand paramsVD3 0xF000#16 "frobnicate".toList = .invalid .unknownCommand ∧
    parseCommand paramsVD3 0xF000#16 "ba dup".toList = .invalid .ambiguousSymbol ∧
    parseCommand paramsVD3 0xF000#16 "ba $zz".toList = .invalid .badArgument ∧
    parseCommand paramsVD3 0xF000#16 "br a 256".toList = .invalid .badArgument ∧
    parseCommand paramsVD3 0xF000#16 "bi sbc".toList = .breakInstruction "SBC".toList ∧
    parseCommand paramsVD3 0xF004#16 "ba done".toList = .breakAddress 0xF008#16 ∧
    parseCommand paramsVD3 0xF004#16 "read .".toList = .read 1 0xF004#16 ∧
    parseCommand paramsVD3 0xF004#16 "read16 $fffc".toList = .read 2 0xFFFC#16 := by decide

/-- VD3 event 14: the vector read low byte first; event 9: the empty line repeats. -/
theorem test_debugger_read_and_repeat :
    runCommand .nop (.read 2 0xFFFC#16) (onP 0xF004#16 [] []) =
      .stay ((onP 0xF004#16 [] []).emit (.readResult 2 0xFFFC#16 0xF000)) ∧
    takeLine .nop [] { onP 0xF004#16 [] [] with dbg := { Dbg.powerOn with lastCommand := some ['c'] } } =
      .release { onP 0xF004#16 [] [] with dbg := { Dbg.powerOn with lastCommand := some ['c'], freeRun := true } } := by
  decide

/-- VD4 event 4: four notices in their order. -/
theorem test_debugger_notice_order :
    notices .nop { onP 0xF004#16 [] [] with
      a := 0x10#8, x := 0x10#8
      dbg := { Dbg.powerOn with
        bpAddr := ⟨true, 0xF004#16, false⟩, bpInstr := ⟨true, "NOP".toList⟩, bpA := ⟨true, 0x10#8⟩, bpX := ⟨true, 0x10#8⟩ } } =
      [.addressNotice 0xF004#16, .instructionNotice "NOP".toList, .registerNotice .A 0x10#8, .registerNotice .X 0x10#8] := by
  decide

/-- VD8: a debugger read of an unmapped address is fatal. -/
theorem test_debugger_unmapped_read :
    isFault (step { onP 0xF000#16 [] ["read $9000"] with run := .paused .nop [] false })
      (.unmappedAddress 0x9000#16 .read ⟨some 0xF000#16, some 0xEA#8⟩) = true := by decide

/-- VD10: the halt signal stops the loop before the next step; the first value wins. -/
theorem test_halt_signal :
    shown (step { onP 0xF008#16 [] [] with haltStatus := some 2 }) = some (.halted 2, 0xF008#16, 0x00#8, false) ∧
    ((State.reset.signalHalt 2).signalHalt 3).haltStatus = some 2 ∧ (State.reset.signalHalt 0).haltStatus = none := by
  decide

/-- A platform of one RAM and one ROM of four bytes, whose vector points at 0xFFFE. -/
def smallPlatform : PowerOn :=
  { defaultPlatform with
    busMap := [⟨"ram", 0x0000#16, .ram 0x0200#16 [0xAA#8]⟩, ⟨"rom", 0xFFFC#16, .rom [0xFE#8, 0xFF#8, 0xEA#8, 0xEA#8]⟩] }

/-- Power-on, then `reset()`: `PC` from the vector, `I = 1` (`70_reset_and_hazards.md` R320, R321). -/
theorem test_power_on :
    (match powerOn smallPlatform with
      | .ok s => s == { State.reset with
          pc := 0xFFFE#16
          bus := [⟨"ram", 0x0000#16, .ram 0x0200#16⟩, ⟨"rom", 0xFFFC#16, .rom 0x0004#16⟩]
          mem := cells [] [(0x0000#16, 0xAA#8), (0xFFFC#16, 0xFE#8), (0xFFFD#16, 0xFF#8), (0xFFFE#16, 0xEA#8),
            (0xFFFF#16, 0xEA#8)] }
      | .error _ => false) = true := by decide

/-- With no binding at the vector the machine is faulted (`60_exceptions.md` R292). -/
theorem test_power_on_without_vector :
    (match powerOn { smallPlatform with busMap := [⟨"ram", 0x0000#16, .ram 0x0200#16 []⟩] } with
      | .ok s => s.run == .faulted (.unmappedAddress 0xFFFC#16 .read ⟨none, none⟩)
      | .error _ => false) = true := by decide

/-! ## Witnesses: for every obligation with hypotheses, a state and operands that meet them, clause by clause -/

/-- Map B with a stack in RAM, a program byte at 0x1000, the flags `N` and `C` set. -/
def w0 (sp : Byte) (l : List (Addr × Byte)) : State :=
  start mapB Params.default 0x1000#16 ⟨0x12, 0x34, 0x56, sp⟩ ⟨true, false, false, false, false, true⟩ l

/-- As `w0`, on another map. -/
def wOn (bus : List Binding) (sp : Byte) (l : List (Addr × Byte)) : State := { w0 sp l with bus := bus }

/-- As `w0`, in decimal mode with this setting. -/
def wDecimal (m : DecimalArith) : State :=
  { w0 0xFF#8 [] with
    params := { Params.default with decimalArith := m }, flags := ⟨false, false, true, false, false, true⟩ }

theorem test_witness_EncodeOfDecode :
    decode [0x8D#8, 0x00#8, 0x80#8, 0xEA#8] = some (.staAbs 0x8000#16, [0xEA#8]) ∧
    decode [0xEA#8] = some (.nop, []) ∧ decode [0xB1#8, 0xFF#8] = some (.ldaIzy 0xFF#8, []) := by decide

theorem test_witness_OpcodeMap :
    decodeWith 0x00#8 0xFF#8 0xFF#8 = some .brk ∧ decodeWith 0xFE#8 0x34#8 0x12#8 = some (.incAbx 0x1234#16) ∧
    (Mode.IMP, 0x00) ∈ opcodeMap .BRK ∧ (Mode.ABX, 0xFE) ∈ opcodeMap .INC := by decide

theorem test_witness_InstructionFormats :
    Instr.mode .nop ∈ [Mode.IMP, .ACC] ∧ Instr.mode .rorAcc ∈ [Mode.IMP, .ACC] ∧
    (Instr.bvs 0xFC#8).mode ∈ [Mode.IMM, .ZP, .ZPX, .ZPY, .IZX, .IZY, .REL] ∧
    (Instr.jmpInd 0xFFFF#16).mode ∈ [Mode.ABS, .ABX, .ABY, .IND] := by decide

theorem test_witness_UndefinedOpcodesFault :
    0x02 ∈ undefinedOpcodes ∧ 0xFF ∈ undefinedOpcodes ∧ (w0 0xFF#8 []).Ready ∧
    (∃ t, busRead (w0 0xFF#8 [(0x1000#16, 0x02#8)]).pc (w0 0xFF#8 [(0x1000#16, 0x02#8)]) = .ok 0x02#8 t) ∧
    ∃ t, busRead (w0 0xFF#8 [(0x1000#16, 0xFF#8)]).pc (w0 0xFF#8 [(0x1000#16, 0xFF#8)]) = .ok 0xFF#8 t :=
  ⟨by decide, by decide, ⟨rfl, rfl, rfl⟩, ⟨_, rfl⟩, _, rfl⟩

/-- `STA $2000` at 0x1000. -/
def wSta : State := w0 0xFF#8 [(0x1000#16, 0x8D#8), (0x1001#16, 0x00#8), (0x1002#16, 0x20#8)]

theorem test_witness_StepRunsDecoded :
    wSta.Ready ∧ wSta.monitors = [] ∧
    decode [wSta.mem.read wSta.pc, wSta.mem.read (wSta.pc + 1#16), wSta.mem.read (wSta.pc + 2#16)] =
      some (.staAbs 0x2000#16, []) ∧
    ∀ k, k < (Instr.staAbs 0x2000#16).length → plain wSta (wSta.pc + BitVec.ofNat 16 k) :=
  ⟨⟨rfl, rfl, rfl⟩, rfl, by decide, fun k h => by
    have : k = 0 ∨ k = 1 ∨ k = 2 := by simp only [show (Instr.staAbs 0x2000#16).length = 3 from rfl] at h; omega
    rcases this with rfl | rfl | rfl <;> exact Or.inl (by decide)⟩

theorem test_witness_StepFetchesThenHooks_bytes :
    wSta.Ready ∧ (∃ t0, busRead wSta.pc wSta = .ok 0x8D#8 t0 ∧ opcodeLength 0x8D#8 = some 3 ∧
      ∃ t1, busRead (after wSta 1) t0 = .ok 0x00#8 t1 ∧ ∃ t2, busRead (after wSta 2) t1 = .ok 0x20#8 t2 ∧
      decodeWith 0x8D#8 0x00#8 0x20#8 = some (.staAbs 0x2000#16) ∧ runHooks (.staAbs 0x2000#16) wSta.monitors t2 = .go t2) ∧
    (∃ t0, busRead (w0 0xFF#8 []).pc (w0 0xFF#8 []) = .ok 0x00#8 t0 ∧ opcodeLength 0x00#8 = some 1 ∧
      decodeWith 0x00#8 0#8 0#8 = some .brk) ∧
    (∃ t0, busRead (w0 0xFF#8 [(0x1000#16, 0xA2#8)]).pc (w0 0xFF#8 [(0x1000#16, 0xA2#8)]) = .ok 0xA2#8 t0 ∧
      opcodeLength 0xA2#8 = some 2 ∧ (∃ t2, busRead (after (w0 0xFF#8 []) 1) t0 = .ok 0x00#8 t2) ∧
      decodeWith 0xA2#8 0x00#8 0#8 = some (.ldxImm 0x00#8)) ∧
    ∃ u, runHooks (.ldxImm 0xFF#8) (onP 0xF000#16 [0xA2#8, 0xFF#8] []).monitors (onP 0xF000#16 [0xA2#8, 0xFF#8] []) =
      .pause u :=
  ⟨⟨rfl, rfl, rfl⟩, ⟨_, rfl, rfl, _, rfl, _, rfl, rfl, rfl⟩, ⟨_, rfl, rfl, rfl⟩, ⟨_, rfl, rfl, ⟨_, rfl⟩, rfl⟩, _, rfl⟩

/-- The last bytes of RAM, with nothing after them: an opcode, a form of two bytes, a form of three. -/
def wEdge (pc : Addr) (l : List (Addr × Byte)) : State := { w0 0xFF#8 l with pc := pc }

theorem test_witness_StepFetchesThenHooks_faults :
    (wEdge 0x8000#16 []).Ready ∧
    (∃ e t, busRead (wEdge 0x8000#16 []).pc (wEdge 0x8000#16 []) = .fault e t) ∧
    (∃ t0, busRead 0x7FFF#16 (wEdge 0x7FFF#16 [(0x7FFF#16, 0xA9#8)]) = .ok 0xA9#8 t0 ∧ opcodeLength 0xA9#8 = some 2 ∧
      ∃ e t, busRead (after (wEdge 0x7FFF#16 []) 1) t0 = .fault e t) ∧
    (∃ t0, busRead 0x7FFF#16 (wEdge 0x7FFF#16 [(0x7FFF#16, 0xAD#8)]) = .ok 0xAD#8 t0 ∧ opcodeLength 0xAD#8 = some 3 ∧
      ∃ e t, busRead (after (wEdge 0x7FFF#16 []) 1) t0 = .fault e t) ∧
    ∃ t0, busRead 0x7FFE#16 (wEdge 0x7FFE#16 [(0x7FFE#16, 0xAD#8)]) = .ok 0xAD#8 t0 ∧
      ∃ t1, busRead (after (wEdge 0x7FFE#16 []) 1) t0 = .ok 0x00#8 t1 ∧
      ∃ e t, busRead (after (wEdge 0x7FFE#16 []) 2) t1 = .fault e t :=
  ⟨⟨rfl, rfl, rfl⟩, ⟨_, _, rfl⟩, ⟨_, rfl, rfl, _, _, rfl⟩, ⟨_, rfl, rfl, _, _, rfl⟩, _, rfl, _, rfl, _, _, rfl⟩

theorem test_witness_PlacedWordRuns :
    decodeTableWord 8 0x00 = some .brk ∧ decodeTableWord 16 0xFFA2 = some (.ldxImm 0xFF#8) ∧
    decodeTableWord 24 0xFFFF6C = some (.jmpInd 0xFFFF#16) := by decide

theorem test_witness_StepKeepsInvariant : wSta.Inv ∧ ∃ t, step wSta = .next t :=
  ⟨⟨by decide, by decide, by decide⟩, _, rfl⟩

theorem test_witness_StepKeepsConfiguration :
    kindAt wSta 0xF000#16 = some .rom ∧ kindAt wSta 0xFFFF#16 = some .rom ∧ ∃ t, step wSta = .next t :=
  ⟨by decide, by decide, _, rfl⟩

/-- For FlagFrame and RegisterFrame: their premise with an instruction outside each list, and one inside. -/
theorem test_witness_frames :
    (∃ t, exec (.staAbs 0x2000#16) wSta = .next t) ∧ Mnemonic.STA ∉ nzWriters ∧ Mnemonic.STA ∉ cWriters ∧
    Mnemonic.STA ∉ vWriters ∧ Mnemonic.STA ∉ dWriters ∧ Mnemonic.STA ∉ iWriters ∧ Mnemonic.STA ∉ aWriters ∧
    Mnemonic.STA ∉ xWriters ∧ Mnemonic.STA ∉ yWriters ∧ Mnemonic.STA ∉ spWriters ∧ Mnemonic.STA ∉ shiftMnemonics ∧
    (∃ t, exec (.aslZp 0x10#8) wSta = .next t) ∧ Mnemonic.ASL ∈ shiftMnemonics ∧ (Instr.aslZp 0x10#8).mode ≠ .ACC :=
  ⟨⟨_, rfl⟩, by decide, by decide, by decide, by decide, by decide, by decide, by decide, by decide, by decide, by decide,
    ⟨_, rfl⟩, by decide, by decide⟩

theorem test_witness_ExecLeavesHostSide : ∃ t, exec .brk (w0 0xFF#8 []) = .next t := ⟨_, rfl⟩

theorem test_witness_MemoryFrame :
    (∃ t, exec (.staAbs 0x2000#16) wSta = .next t) ∧ 0x2001#16 ∉ stored (.staAbs 0x2000#16) wSta ∧
    0x1FFF#16 ∉ stored (.staAbs 0x2000#16) wSta ∧ stored (.staAbs 0x2000#16) wSta = [0x2000#16] ∧
    (∃ t, exec .brk (w0 0x01#8 []) = .next t) ∧ stored .brk (w0 0x01#8 []) = [0x0101#16, 0x0100#16, 0x01FF#16] ∧
    (∃ t, exec (.cmpZp 0x10#8) wSta = .next t) ∧ stored (.cmpZp 0x10#8) wSta = [] :=
  ⟨⟨_, rfl⟩, by decide, by decide, by decide, ⟨_, rfl⟩, by decide, ⟨_, rfl⟩, by decide⟩

/-- The ACIA of State.reset. -/
def bAcia : Binding := ⟨"acia", 0x8000#16, .acia (Acia.powerOn (Peripheral.unscripted 0x8000))⟩

/-- The SPI region of State.reset. -/
def bSpi : Binding := ⟨"spi", 0x8010#16, .spi (Spi.powerOn 0x8010 [])⟩

theorem test_witness_DeviceFrame :
    (∃ t, exec (.staAbs 0x2000#16) (wOn State.resetBus 0xFF#8 []) = .next t) ∧
    findBinding (wOn State.resetBus 0xFF#8 []).bus 0x8003#16 = some bAcia ∧
    ∀ a ∈ accessed (.staAbs 0x2000#16) (wOn State.resetBus 0xFF#8 []), bAcia.contains a = false :=
  ⟨⟨_, rfl⟩, by decide, by
    rw [show accessed (.staAbs 0x2000#16) (wOn State.resetBus 0xFF#8 []) = [0x2000#16] by decide]
    simp only [List.mem_singleton, forall_eq]
    decide⟩

/-- RAM everywhere: every address is mapped. -/
theorem flat_mapped (s : State) (a : Addr) (h : s.bus = flatBus) : mapped s a = true ∧ kindAt s a = some .ram := by
  have hb := a.isLt
  by_cases hl : a.toNat < 0x8000
  · simp [mapped, kindAt, findBinding, Binding.contains, Binding.size, Device.size, h, flatBus, hl, Device.kind]
  · have : 0x8000 ≤ a.toNat := by omega
    simp [mapped, kindAt, findBinding, Binding.contains, Binding.size, Device.size, h, flatBus, hl, Device.kind, this, hb]

/-- One state meets the hypotheses for every instruction. -/
theorem test_witness_EveryInstructionCompletes (i : Instr) :
    (∀ a ∈ accessed i { wSta with bus := flatBus }, mapped { wSta with bus := flatBus } a = true) ∧
    (∀ a ∈ stored i { wSta with bus := flatBus }, kindAt { wSta with bus := flatBus } a = some .rom →
      wSta.params.romWrite = .ignore) ∧
    (i.mnemonic ∈ [Mnemonic.ADC, .SBC] → ¬refuseOn { wSta with bus := flatBus }) :=
  ⟨fun a _ => (flat_mapped _ a rfl).1, fun a _ h => by (rw [(flat_mapped _ a rfl).2] at h; cases h),
    fun _ h => Bool.noConfusion h.1⟩

/-- The ROM clause: a store to ROM under `ROM_WRITE = ignore`. -/
theorem test_witness_EveryInstructionCompletes_rom :
    stored (.staAbs 0xF000#16) wSta = [0xF000#16] ∧ mapped wSta 0xF000#16 = true ∧ kindAt wSta 0xF000#16 = some .rom ∧
    { Params.default with romWrite := .ignore }.romWrite = RomWrite.ignore := by decide

/-- An operand read that completes, and one that faults (0x8000 is mapped nowhere in map B). -/
def Reads (i j : Instr) (m : Mnemonic) (s : State) : Prop :=
  (i.mnemonic = m ∧ ∃ src, i.operand = src.operand ∧ ∃ v t, loadSource src s = .ok v t) ∧
  (j.mnemonic = m ∧ ∃ src, j.operand = src.operand ∧ ∃ e t, loadSource src s = .fault e t)

theorem test_witness_LoadRules :
    Reads (.ldaImm 0xFF#8) (.ldaAbs 0x8000#16) .LDA wSta ∧ Reads (.ldxZp 0xFF#8) (.ldxAbs 0x8000#16) .LDX wSta ∧
    Reads (.ldyImm 0x00#8) (.ldyAbs 0x8000#16) .LDY wSta ∧
    ∃ e t, loadSource (.memory (.indexedIndirect 0xFF#8)) (wOn mapC 0xFF#8 []) = .fault e t :=
  ⟨⟨⟨rfl, .immediate 0xFF#8, rfl, _, _, rfl⟩, rfl, .memory (.absolute 0x8000#16), rfl, _, _, rfl⟩,
    ⟨⟨rfl, .memory (.zeroPage 0xFF#8), rfl, _, _, rfl⟩, rfl, .memory (.absolute 0x8000#16), rfl, _, _, rfl⟩,
    ⟨⟨rfl, .immediate 0x00#8, rfl, _, _, rfl⟩, rfl, .memory (.absolute 0x8000#16), rfl, _, _, rfl⟩, _, _, rfl⟩

/-- A store that completes, one whose pointer read faults (map C has no page zero), one whose write faults. -/
theorem test_witness_StoreRules :
    (∃ ea t, effectiveAddress (.indirectIndexed 0xFF#8) wSta = .ok ea t ∧ ∃ u, busWrite ea wSta.a t = .ok () u) ∧
    (Instr.staIzy 0xFF#8).operand = .memory (.indirectIndexed 0xFF#8) ∧
    (∃ e t, effectiveAddress (.indirectIndexed 0xFF#8) (wOn mapC 0xFF#8 []) = .fault e t) ∧
    (∃ ea t, effectiveAddress (.absolute 0xFFFF#16) wSta = .ok ea t ∧ ∃ e u, busWrite ea wSta.a t = .fault e u) ∧
    (Instr.stxAbs 0xFFFF#16).operand = .memory (.absolute 0xFFFF#16) ∧
    (Instr.styAbs 0xFFFF#16).operand = .memory (.absolute 0xFFFF#16) ∧
    (Instr.styZpx 0xFF#8).operand = .memory (.zeroPageX 0xFF#8) ∧
    ∃ ea t, effectiveAddress (.zeroPageX 0xFF#8) wSta = .ok ea t ∧ ∃ u, busWrite ea wSta.y t = .ok () u :=
  ⟨⟨_, _, rfl, _, rfl⟩, rfl, ⟨_, _, rfl⟩, ⟨_, _, rfl, _, _, rfl⟩, rfl, rfl, rfl, _, _, rfl, _, rfl⟩

/-- The stack at both ends of its page, and a map without it. -/
theorem test_witness_PushAndPull :
    (∃ t, busWrite (BitVec.ofNat 16 ((w0 0x00#8 []).params.stackPage.toNat + (w0 0x00#8 []).sp.toNat)) 0x5A#8 (w0 0x00#8 [])
      = .ok () t) ∧
    (∃ t, busWrite (BitVec.ofNat 16 ((w0 0xFF#8 []).params.stackPage.toNat + (w0 0xFF#8 []).sp.toNat)) 0x5A#8 (w0 0xFF#8 [])
      = .ok () t) ∧
    ∃ e t, busWrite (BitVec.ofNat 16 ((wOn mapC 0xFF#8 []).params.stackPage.toNat + (wOn mapC 0xFF#8 []).sp.toNat)) 0x5A#8
      (wOn mapC 0xFF#8 []) = .fault e t :=
  ⟨⟨_, rfl⟩, ⟨_, rfl⟩, _, _, rfl⟩

theorem test_witness_StackInstructions :
    (∃ t, push wSta.a wSta = .ok () t) ∧ (∃ e t, push wSta.a (wOn mapC 0xFF#8 []) = .fault e t) ∧
    (∃ t, push (wSta.sr ||| 0x30#8) wSta = .ok () t) ∧
    (∃ e t, push ((wOn mapC 0xFF#8 []).sr ||| 0x30#8) (wOn mapC 0xFF#8 []) = .fault e t) ∧
    (∃ v t, pull (w0 0xFF#8 [(0x0100#16, 0xC3#8)]) = .ok v t) ∧ ∃ e t, pull (wOn mapC 0xFE#8 []) = .fault e t :=
  ⟨⟨_, rfl⟩, ⟨_, _, rfl⟩, ⟨_, rfl⟩, ⟨_, _, rfl⟩, ⟨_, _, rfl⟩, _, _, rfl⟩

theorem test_witness_AdcRule :
    Reads (.adcImm 0x80#8) (.adcAbs 0x8000#16) .ADC wSta ∧ binaryOn wSta ∧ binaryOn (wDecimal .binary) ∧
    decimalOn (wDecimal .bcdNmos) ∧ refuseOn (wDecimal .refuse) ∧
    (∃ v t, loadSource (.immediate 0x99#8) (wDecimal .bcdNmos) = .ok v t) ∧
    ∃ v t, loadSource (.immediate 0x99#8) (wDecimal .refuse) = .ok v t :=
  ⟨⟨⟨rfl, .immediate 0x80#8, rfl, _, _, rfl⟩, rfl, .memory (.absolute 0x8000#16), rfl, _, _, rfl⟩, Or.inl rfl, Or.inr rfl,
    ⟨rfl, rfl⟩, ⟨rfl, rfl⟩, ⟨_, _, rfl⟩, _, _, rfl⟩

/-- BCD and other operands; both sides of each correction: the low digit, the high digit, the two borrows. -/
theorem test_witness_DecimalFormulas :
    isBcd 0x99#8 ∧ isBcd 0x00#8 ∧ ¬isBcd 0x9A#8 ∧ decimalOn (wDecimal .bcdNmos) ∧
    adcLow 0 0x08 0x01 = 0x09 ∧ adcLow 1 0x0F 0x0F = 0x15 ∧ adcFinal 0 0x58 0x41 = 0x99 ∧ adcFinal 1 0x58 0x46 = 0x105 ∧
    adcFinal 1 0xFF 0xFF = 0x255 ∧ sbcFinal 1 0x46 0x12 = 0x34 ∧ sbcFinal 1 0x40 0x13 = 0x27 ∧
    sbcFinal 1 0x12 0x21 % 256 = 0x91 ∧ sbcFinal 0 0x00 0xFF % 256 = 0xAA :=
  ⟨⟨by decide, by decide⟩, ⟨by decide, by decide⟩, fun h => absurd h.1 (by decide), ⟨rfl, rfl⟩, by decide, by decide, by decide,
    by decide, by decide, by decide, by decide, by decide, by decide⟩

theorem test_witness_SbcRule :
    Reads (.sbcImm 0x80#8) (.sbcAbs 0x8000#16) .SBC wSta ∧ binaryOn wSta ∧ decimalOn (wDecimal .bcdNmos) ∧
    refuseOn (wDecimal .refuse) ∧ (∃ v t, loadSource (.immediate 0x99#8) (wDecimal .bcdNmos) = .ok v t) ∧
    ∃ v t, loadSource (.immediate 0x99#8) (wDecimal .refuse) = .ok v t :=
  ⟨⟨⟨rfl, .immediate 0x80#8, rfl, _, _, rfl⟩, rfl, .memory (.absolute 0x8000#16), rfl, _, _, rfl⟩, Or.inl rfl,
    ⟨rfl, rfl⟩, ⟨rfl, rfl⟩, ⟨_, _, rfl⟩, _, _, rfl⟩

theorem test_witness_CompareRules :
    Reads (.cmpImm 0x12#8) (.cmpAbs 0x8000#16) .CMP wSta ∧ Reads (.cpxImm 0x35#8) (.cpxAbs 0x8000#16) .CPX wSta ∧
    Reads (.cpyImm 0x00#8) (.cpyAbs 0x8000#16) .CPY wSta :=
  ⟨⟨⟨rfl, .immediate 0x12#8, rfl, _, _, rfl⟩, rfl, .memory (.absolute 0x8000#16), rfl, _, _, rfl⟩,
    ⟨⟨rfl, .immediate 0x35#8, rfl, _, _, rfl⟩, rfl, .memory (.absolute 0x8000#16), rfl, _, _, rfl⟩,
    ⟨⟨rfl, .immediate 0x00#8, rfl, _, _, rfl⟩, rfl, .memory (.absolute 0x8000#16), rfl, _, _, rfl⟩⟩

theorem test_witness_LogicRules :
    Reads (.andImm 0x0F#8) (.andAbs 0x8000#16) .AND wSta ∧ Reads (.oraImm 0x0F#8) (.oraAbs 0x8000#16) .ORA wSta ∧
    Reads (.eorImm 0x0F#8) (.eorAbs 0x8000#16) .EOR wSta :=
  ⟨⟨⟨rfl, .immediate 0x0F#8, rfl, _, _, rfl⟩, rfl, .memory (.absolute 0x8000#16), rfl, _, _, rfl⟩,
    ⟨⟨rfl, .immediate 0x0F#8, rfl, _, _, rfl⟩, rfl, .memory (.absolute 0x8000#16), rfl, _, _, rfl⟩,
    ⟨⟨rfl, .immediate 0x0F#8, rfl, _, _, rfl⟩, rfl, .memory (.absolute 0x8000#16), rfl, _, _, rfl⟩⟩

theorem test_witness_BitRule : Reads (.bitZp 0xFF#8) (.bitAbs 0x8000#16) .BIT wSta :=
  ⟨⟨rfl, .memory (.zeroPage 0xFF#8), rfl, _, _, rfl⟩, rfl, .memory (.absolute 0x8000#16), rfl, _, _, rfl⟩

/-- Read-modify-write: one that completes, one with an unmapped address, one on ROM, whose read completes and whose
write faults. The pointer clause has no form: no mode of a read-modify-write reads a pointer (`30_encoding.md` R98). -/
def Rewrites (i j k : Instr) (m : Mnemonic) (s : State) (result : Flags → Byte → Byte) : Prop :=
  (i.mnemonic = m ∧ ∃ o, i.operand = .memory o ∧ ∃ ea t, effectiveAddress o s = .ok ea t ∧
    ∃ v u, busRead ea t = .ok v u ∧ ∃ w, busWrite ea (result s.flags v) u = .ok () w) ∧
  (j.mnemonic = m ∧ ∃ o, j.operand = .memory o ∧ ∃ ea t, effectiveAddress o s = .ok ea t ∧
    ∃ e u, busRead ea t = .fault e u) ∧
  (k.mnemonic = m ∧ ∃ o, k.operand = .memory o ∧ ∃ ea t, effectiveAddress o s = .ok ea t ∧
    ∃ v u, busRead ea t = .ok v u ∧ ∃ e w, busWrite ea (result s.flags v) u = .fault e w)

/-- The three witnesses stand at 0x7FFF, 0x8000 and 0xF000. -/
theorem test_witness_IncDecRules :
    Rewrites (.incAbs 0x7FFF#16) (.incAbs 0x8000#16) (.incAbs 0xF000#16) .INC wSta
      (fun _ v => BitVec.ofNat 8 (v.toNat + 1)) ∧
    Rewrites (.decAbs 0x7FFF#16) (.decAbs 0x8000#16) (.decAbs 0xF000#16) .DEC wSta
      (fun _ v => BitVec.ofNat 8 (v.toNat + 255)) ∧
    Instr.inx.mnemonic = .INX ∧ Instr.iny.mnemonic = .INY ∧ Instr.dex.mnemonic = .DEX ∧ Instr.dey.mnemonic = .DEY :=
  ⟨⟨⟨rfl, _, rfl, _, _, rfl, _, _, rfl, _, rfl⟩, ⟨rfl, _, rfl, _, _, rfl, _, _, rfl⟩,
      rfl, _, rfl, _, _, rfl, _, _, rfl, _, _, rfl⟩,
    ⟨⟨rfl, _, rfl, _, _, rfl, _, _, rfl, _, rfl⟩, ⟨rfl, _, rfl, _, _, rfl, _, _, rfl⟩,
      rfl, _, rfl, _, _, rfl, _, _, rfl, _, _, rfl⟩, rfl, rfl, rfl, rfl⟩

theorem test_witness_ShiftRules :
    Rewrites (.aslAbs 0x7FFF#16) (.aslAbs 0x8000#16) (.aslAbs 0xF000#16) .ASL wSta aslOf ∧
    Rewrites (.lsrAbs 0x7FFF#16) (.lsrAbs 0x8000#16) (.lsrAbs 0xF000#16) .LSR wSta lsrOf ∧
    Rewrites (.rolAbs 0x7FFF#16) (.rolAbs 0x8000#16) (.rolAbs 0xF000#16) .ROL wSta rolOf ∧
    Rewrites (.rorAbs 0x7FFF#16) (.rorAbs 0x8000#16) (.rorAbs 0xF000#16) .ROR wSta rorOf ∧
    Instr.aslAcc.operand = .accumulator ∧ Instr.lsrAcc.operand = .accumulator ∧ Instr.rolAcc.operand = .accumulator ∧
    Instr.rorAcc.operand = .accumulator :=
  ⟨⟨⟨rfl, _, rfl, _, _, rfl, _, _, rfl, _, rfl⟩, ⟨rfl, _, rfl, _, _, rfl, _, _, rfl⟩,
      rfl, _, rfl, _, _, rfl, _, _, rfl, _, _, rfl⟩,
    ⟨⟨rfl, _, rfl, _, _, rfl, _, _, rfl, _, rfl⟩, ⟨rfl, _, rfl, _, _, rfl, _, _, rfl⟩,
      rfl, _, rfl, _, _, rfl, _, _, rfl, _, _, rfl⟩,
    ⟨⟨rfl, _, rfl, _, _, rfl, _, _, rfl, _, rfl⟩, ⟨rfl, _, rfl, _, _, rfl, _, _, rfl⟩,
      rfl, _, rfl, _, _, rfl, _, _, rfl, _, _, rfl⟩,
    ⟨⟨rfl, _, rfl, _, _, rfl, _, _, rfl, _, rfl⟩, ⟨rfl, _, rfl, _, _, rfl, _, _, rfl⟩,
      rfl, _, rfl, _, _, rfl, _, _, rfl, _, _, rfl⟩, rfl, rfl, rfl, rfl⟩

/-- For TransferRules, FlagRules and BranchRules: a premise of the form `i.mnemonic = m`, with its operand. -/
theorem test_witness_implied_and_branches :
    Instr.tax.mnemonic = .TAX ∧ Instr.txs.mnemonic = .TXS ∧ Instr.clc.mnemonic = .CLC ∧ Instr.nop.mnemonic = .NOP ∧
    (Instr.bcc 0x7F#8).mnemonic = .BCC ∧ (Instr.bcc 0x7F#8).operand = .relative 0x7F#8 ∧
    (Instr.bvs 0x80#8).mnemonic = .BVS ∧ (Instr.bvs 0x80#8).operand = .relative 0x80#8 := by decide

/-- The pointer at the end of a page, in both settings, and with either byte unmapped. -/
theorem test_witness_JmpRules :
    (0x0300#16).toNat = (if wSta.params.jmpIndPageWrap then 256 * ((0x02FF#16).toNat / 256) + ((0x02FF#16).toNat + 1) % 256
      else ((0x02FF#16).toNat + 1) % 65536) ∧
    (0x0200#16).toNat = (if true then 256 * ((0x02FF#16).toNat / 256) + ((0x02FF#16).toNat + 1) % 256
      else ((0x02FF#16).toNat + 1) % 65536) ∧
    (0x0000#16).toNat = (if wSta.params.jmpIndPageWrap then 256 * ((0xFFFF#16).toNat / 256) + ((0xFFFF#16).toNat + 1) % 256
      else ((0xFFFF#16).toNat + 1) % 65536) ∧
    (∃ l t, busRead 0x02FF#16 wSta = .ok l t ∧ ∃ h u, busRead 0x0300#16 t = .ok h u) ∧
    (∃ e t, busRead 0x8000#16 wSta = .fault e t) ∧
    ∃ l t, busRead 0x7FFF#16 wSta = .ok l t ∧ ∃ e u, busRead 0x8000#16 t = .fault e u :=
  ⟨by decide, by decide, by decide, ⟨_, _, rfl, _, _, rfl⟩, ⟨_, _, rfl⟩, _, _, rfl, _, _, rfl⟩

/-- A stack that wraps inside its page, and one whose byte 0x01FF is missing, at the first and the second access. -/
theorem test_witness_CallRules :
    (∃ t, push (BitVec.ofNat 8 ((after wSta 2).toNat / 256)) (w0 0x00#8 []) = .ok () t ∧
      ∃ u, push (BitVec.ofNat 8 ((after wSta 2).toNat % 256)) t = .ok () u) ∧
    (∃ e t, push (BitVec.ofNat 8 ((after wSta 2).toNat / 256)) (wOn mapD 0xFF#8 []) = .fault e t) ∧
    (∃ t, push (BitVec.ofNat 8 ((after wSta 2).toNat / 256)) (wOn mapD 0x00#8 []) = .ok () t ∧
      ∃ e u, push (BitVec.ofNat 8 ((after wSta 2).toNat % 256)) t = .fault e u) ∧
    (∃ l t, pull (w0 0xFE#8 []) = .ok l t ∧ ∃ h u, pull t = .ok h u) ∧ (∃ e t, pull (wOn mapD 0xFE#8 []) = .fault e t) ∧
    ∃ l t, pull (wOn mapD 0xFD#8 []) = .ok l t ∧ ∃ e u, pull t = .fault e u :=
  ⟨⟨_, rfl, _, rfl⟩, ⟨_, _, rfl⟩, ⟨_, rfl, _, _, rfl⟩, ⟨_, _, rfl, _, _, rfl⟩, ⟨_, _, rfl⟩, _, _, rfl, _, _, rfl⟩

/-- The bytes pushed by `BRK` at 0x1000. -/
def hiB : Byte := BitVec.ofNat 8 ((after wSta 2).toNat / 256)

/-- The low byte pushed by `BRK` at 0x1000. -/
def loB : Byte := BitVec.ofNat 8 ((after wSta 2).toNat % 256)

/-- A trap that is taken, and one that faults at each of its four accesses. -/
theorem test_witness_BrkRule :
    (∃ t, push hiB wSta = .ok () t ∧ ∃ u, push loB t = .ok () u ∧ ∃ v, push (wSta.sr ||| 0x30#8) u = .ok () v ∧
      ∃ target w, memRead16 wSta.params.brkVector { v with flags := { wSta.flags with i := true } } = .ok target w) ∧
    (∃ e t, push hiB (wOn mapD 0xFF#8 []) = .fault e t) ∧
    (∃ t, push hiB (wOn mapD 0x00#8 []) = .ok () t ∧ ∃ e u, push loB t = .fault e u) ∧
    (∃ t, push hiB (wOn mapD 0x01#8 []) = .ok () t ∧ ∃ u, push loB t = .ok () u ∧
      ∃ e v, push ((wOn mapD 0x01#8 []).sr ||| 0x30#8) u = .fault e v) ∧
    ∃ t, push hiB (wOn mapE 0xFF#8 []) = .ok () t ∧ ∃ u, push loB t = .ok () u ∧
      ∃ v, push ((wOn mapE 0xFF#8 []).sr ||| 0x30#8) u = .ok () v ∧
      ∃ e w, memRead16 (wOn mapE 0xFF#8 []).params.brkVector { v with flags := { wSta.flags with i := true } } = .fault e w :=
  ⟨⟨_, rfl, _, rfl, _, rfl, _, _, rfl⟩, ⟨_, _, rfl⟩, ⟨_, rfl, _, _, rfl⟩, ⟨_, rfl, _, rfl, _, _, rfl⟩,
    _, rfl, _, rfl, _, rfl, _, _, rfl⟩

/-- The flags that the status byte `v` holds. -/
def flagsIn (v : Byte) : Flags := ⟨v[7], v[6], v[3], v[2], v[1], v[0]⟩

theorem test_witness_RtiRule :
    (∃ v t, pull (w0 0xFD#8 []) = .ok v t ∧ ∃ l u, pull { t with flags := flagsIn v } = .ok l u ∧ ∃ h w, pull u = .ok h w) ∧
    (∃ e t, pull (wOn mapD 0xFE#8 []) = .fault e t) ∧
    (∃ v t, pull (wOn mapD 0xFD#8 []) = .ok v t ∧ ∃ e u, pull { t with flags := flagsIn v } = .fault e u) ∧
    ∃ v t, pull (wOn mapD 0xFC#8 []) = .ok v t ∧ ∃ l u, pull { t with flags := flagsIn v } = .ok l u ∧
      ∃ e w, pull u = .fault e w :=
  ⟨⟨_, _, rfl, _, _, rfl, _, _, rfl⟩, ⟨_, _, rfl⟩, ⟨_, _, rfl, _, _, rfl⟩, _, _, rfl, _, _, rfl, _, _, rfl⟩

/-- The stack slots wrap inside the page. -/
theorem test_witness_TrapReturns :
    kindAt (w0 0x01#8 []) (stackSlot (w0 0x01#8 []) 0#8) = some .ram ∧
    kindAt (w0 0x01#8 []) (stackSlot (w0 0x01#8 []) 1#8) = some .ram ∧
    kindAt (w0 0x01#8 []) (stackSlot (w0 0x01#8 []) 2#8) = some .ram ∧
    plain (w0 0x01#8 []) (w0 0x01#8 []).params.brkVector ∧ plain (w0 0x01#8 []) ((w0 0x01#8 []).params.brkVector + 1#16) :=
  ⟨by decide, by decide, by decide, Or.inr (by decide), Or.inr (by decide)⟩

theorem test_witness_CallReturns :
    kindAt (w0 0x00#8 []) (stackSlot (w0 0x00#8 []) 0#8) = some .ram ∧
    kindAt (w0 0x00#8 []) (stackSlot (w0 0x00#8 []) 1#8) = some .ram := by decide

/-- For DirectAddresses: an instruction of every mode. -/
theorem test_witness_DirectAddresses :
    [Instr.brk, .rolAcc, .ldaImm 0#8, .ldaZp 0#8, .ldaZpx 0#8, .ldxZpy 0#8, .ldaAbs 0#16, .ldaAbx 0#16, .ldaAby 0#16, .jmpInd 0#16,
      .ldaIzx 0#8, .ldaIzy 0#8, .bcc 0#8].map Instr.mode =
      [Mode.IMP, .ACC, .IMM, .ZP, .ZPX, .ZPY, .ABS, .ABX, .ABY, .IND, .IZX, .IZY, .REL] ∧
    (Instr.jmpAbs 0#16).mode = .ABS ∧ (Instr.jsr 0#16).mode = .ABS := by decide

/-- A word across the end of memory and pointers at the end of page zero, and each read faulting: map C has no page zero, on
the map of one byte 0x00FF stands alone. -/
theorem test_witness_WordReads :
    ((∃ l t, busRead 0xFFFF#16 wSta = .ok l t ∧ ∃ h u, busRead (BitVec.ofNat 16 ((0xFFFF#16).toNat + 1)) t = .ok h u) ∧
      (∃ e t, busRead 0x8000#16 wSta = .fault e t) ∧
      ∃ l t, busRead 0x7FFF#16 wSta = .ok l t ∧ ∃ e u, busRead (BitVec.ofNat 16 ((0x7FFF#16).toNat + 1)) t = .fault e u) ∧
    (0x00FF#16 = BitVec.ofNat 16 (((0xCB#8).toNat + wSta.x.toNat) % 256) ∧
      0x0000#16 = BitVec.ofNat 16 (((0xCB#8).toNat + wSta.x.toNat + 1) % 256) ∧
      0x00FF#16 = BitVec.ofNat 16 (0xFF#8).toNat ∧ 0x0000#16 = BitVec.ofNat 16 (((0xFF#8).toNat + 1) % 256)) ∧
    ((∃ l t, busRead 0x00FF#16 wSta = .ok l t ∧ ∃ h u, busRead 0x0000#16 t = .ok h u) ∧
      (∃ e t, busRead 0x00FF#16 (wOn mapC 0xFF#8 []) = .fault e t) ∧
      ∃ l t, busRead 0x00FF#16 (wOn [⟨"gap", 0x00FF#16, .ram 0x0001#16⟩] 0xFF#8 []) = .ok l t ∧
        ∃ e u, busRead 0x0000#16 t = .fault e u) ∧
    (∃ ea t, effectiveAddress (.indirectIndexed 0xFF#8) wSta = .ok ea t) ∧
    ∃ e t, effectiveAddress (.indirectIndexed 0xFF#8) (wOn mapC 0xFF#8 []) = .fault e t :=
  ⟨⟨⟨_, _, rfl, _, _, rfl⟩, ⟨_, _, rfl⟩, _, _, rfl, _, _, rfl⟩, ⟨by decide, by decide, by decide, by decide⟩,
    ⟨⟨_, _, rfl, _, _, rfl⟩, ⟨_, _, rfl⟩, _, _, rfl, _, _, rfl⟩, ⟨_, _, rfl⟩, _, _, rfl⟩

/-- For BusReadDispatch and BusWriteDispatch: each kind of device at an end of its range, each ACIA register, and the first
address past a device. -/
theorem test_witness_BusDispatch :
    busDisjoint State.reset.bus = true ∧
    (∃ b ∈ State.reset.bus, b.base.toNat ≤ (0x7FFF#16).toNat ∧ (0x7FFF#16).toNat < b.base.toNat + b.size ∧
      b.device = .ram 0x8000#16) ∧
    (∃ b ∈ State.reset.bus, b.base.toNat ≤ (0xFFFF#16).toNat ∧ (0xFFFF#16).toNat < b.base.toNat + b.size ∧
      b.device = .rom 0x1000#16) ∧
    (bAcia ∈ State.reset.bus ∧ bAcia.base.toNat ≤ (0x8003#16).toNat ∧ (0x8003#16).toNat < bAcia.base.toNat + bAcia.size) ∧
    ((0x8000#16).toNat = bAcia.base.toNat + aciaOffset .data ∧ (0x8001#16).toNat = bAcia.base.toNat + aciaOffset .status ∧
      (0x8002#16).toNat = bAcia.base.toNat + aciaOffset .command ∧ (0x8003#16).toNat = bAcia.base.toNat + aciaOffset .control) ∧
    (bSpi ∈ State.reset.bus ∧ bSpi.base.toNat ≤ (0x8010#16).toNat ∧ (0x8010#16).toNat < bSpi.base.toNat + bSpi.size) ∧
    (busDisjoint onBridge.bus = true ∧ ∃ b ∈ onBridge.bus, b.base.toNat ≤ (0x8011#16).toNat ∧
      (0x8011#16).toNat < b.base.toNat + b.size ∧ (0x8011#16).toNat = b.base.toNat + 1 ∧ b.device.kind = .bridge) ∧
    ∀ b ∈ State.reset.bus, ¬(b.base.toNat ≤ (0x8004#16).toNat ∧ (0x8004#16).toNat < b.base.toNat + b.size) := by decide

/-- The clause of `ReplacesDevice` on other addresses: one in another device's range, one in none. -/
theorem test_witness_ReplacesDevice :
    findBinding State.reset.bus 0x8001#16 = some bAcia ∧ bAcia.contains 0x8010#16 = false ∧
    bAcia.contains 0x8004#16 = false := by decide

theorem test_witness_RomWrites :
    kindAt wSta 0xF000#16 = some .rom ∧ wSta.params.romWrite = .fault ∧
    { Params.default with romWrite := .ignore }.romWrite = RomWrite.ignore := by decide

/-- Empty, past the end, exactly at the end, and an overlap of one byte. -/
theorem test_witness_AttachRule :
    (Device.ram 0x0000#16).size = 0 ∧ 0 < (Device.ram 0x0004#16).size ∧
    0x10000 < (0xFFFD#16).toNat + (Device.ram 0x0004#16).size ∧
    (0xFFFC#16).toNat + (Device.ram 0x0004#16).size ≤ 0x10000 ∧
    (∃ b ∈ tableVB1, (0x0FFF#16).toNat < b.base.toNat + b.size ∧
      b.base.toNat < (0x0FFF#16).toNat + (Device.ram 0x0001#16).size) ∧
    (∀ b ∈ tableVB1, ¬((0x1000#16).toNat < b.base.toNat + b.size ∧
      b.base.toNat < (0x1000#16).toNat + (Device.ram 0xE000#16).size)) ∧ busDisjoint tableVB1 = true := by decide

theorem test_witness_AciaProgrammedReset :
    findBinding State.reset.bus 0x8001#16 = some bAcia ∧
    bAcia.device = .acia (Acia.powerOn (Peripheral.unscripted 0x8000)) ∧ (0x8001#16).toNat = bAcia.base.toNat + 1 := by decide

/-- The three read answers, and the three reasons not to ask. -/
theorem test_witness_AciaReads :
    ((aciaWith .bidirectional [] []).receive 0x0D#8).rxFull = true ∧
    (aciaWith .none [] []).peripheral.capability = .none ∧ (aciaWith .write [] []).peripheral.capability = .write ∧
    (aciaWith .read [.got 0x41#8] []).rxFull = false ∧ (aciaWith .read [.got 0x41#8] []).peripheral.capability = .read ∧
    (aciaWith .read [.got 0x41#8] []).peripheral.read.1 = .got 0x41#8 ∧
    (aciaWith .bidirectional [.nothing] []).peripheral.read.1 = .nothing ∧
    (aciaWith .bidirectional [.error] []).peripheral.read.1 = .error := by decide

theorem test_witness_AciaWrites :
    (aciaWith .none [] []).peripheral.capability = .none ∧ (aciaWith .read [] []).peripheral.capability = .read ∧
    (aciaWith .write [] [.rejected]).peripheral.capability = .write ∧
    ((aciaWith .write [] [.rejected]).peripheral.write 0x58#8).1 = .rejected ∧
    ((aciaWith .bidirectional [] [.accepted]).peripheral.write 0x58#8).1 = .accepted := by decide

theorem test_witness_AciaReceive :
    State.reset.run = .running ∧ { State.reset with agenda := [.receive 0x8003#16 0x0D#8] }.agenda =
      .receive 0x8003#16 0x0D#8 :: [] ∧ findBinding State.reset.bus 0x8003#16 = some bAcia ∧
    State.reset.params.aciaRxPush = true ∧ { Params.default with aciaRxPush := false }.aciaRxPush = false := by decide

theorem test_witness_SpiByteExchange :
    Params.default.spiSclkBit ≠ Params.default.spiMosiBit ∧ (Spi.powerOn 0 []).bitCount = 0 ∧ 1 ≤ 1 ∧ 1 ≤ 8 ∧ 8 ≤ 8 := by
  decide

/-- A repeated high level, a falling edge, a low level. -/
theorem test_witness_SpiWithoutEdge :
    ((spiAfter [] [0x01#8]).prevClk = true ∧ bit 0x01#8 Params.default.spiSclkBit = true) ∧
    ¬((spiAfter [] [0x01#8]).prevClk = false ∧ bit 0x00#8 Params.default.spiSclkBit = true) ∧
    ¬((Spi.powerOn 0 []).prevClk = false ∧ bit 0x02#8 Params.default.spiSclkBit = true) ∧
    ((Spi.powerOn 0 []).prevClk = false ∧ bit 0x01#8 Params.default.spiSclkBit = true) := by decide

/-- No match in free-run; no match without it; a match in free-run. -/
theorem test_witness_HookRule :
    (expectedNotices .nop { State.reset with dbg := { Dbg.powerOn with freeRun := true } } = [] ∧
      { Dbg.powerOn with freeRun := true }.freeRun = true) ∧
    ¬(expectedNotices .nop State.reset = [] ∧ State.reset.dbg.freeRun = true) ∧
    expectedNotices .nop { State.reset with dbg := { Dbg.powerOn with bpAddr := ⟨true, 0x0000#16, true⟩, freeRun := true } } =
      [.addressNotice 0x0000#16] := by decide

/-- The three reads, across the end of memory; a read that faults at its first, second, third and fourth byte. -/
theorem test_witness_CommandEffects :
    (State.reset.haltStatus = none ∧ { State.reset with haltStatus := some 2 }.haltStatus = some 2) ∧
    (∃ v0 t0, busRead 0xFFFD#16 wSta = .ok v0 t0 ∧
      ∃ v1 t1, busRead (BitVec.ofNat 16 ((0xFFFD#16).toNat + 1)) t0 = .ok v1 t1 ∧
      ∃ v2 t2, busRead (BitVec.ofNat 16 ((0xFFFD#16).toNat + 2)) t1 = .ok v2 t2 ∧
      ∃ v3 t3, busRead (BitVec.ofNat 16 ((0xFFFD#16).toNat + 3)) t2 = .ok v3 t3) ∧
    (∃ e t, busRead 0x8000#16 wSta = .fault e t) ∧
    (∃ v0 t0, busRead 0x7FFF#16 wSta = .ok v0 t0 ∧ ∃ e t, busRead (BitVec.ofNat 16 ((0x7FFF#16).toNat + 1)) t0 = .fault e t) ∧
    (∃ v0 t0, busRead 0x7FFE#16 wSta = .ok v0 t0 ∧
      ∃ v1 t1, busRead (BitVec.ofNat 16 ((0x7FFE#16).toNat + 1)) t0 = .ok v1 t1 ∧
      ∃ e t, busRead (BitVec.ofNat 16 ((0x7FFE#16).toNat + 2)) t1 = .fault e t) ∧
    ∃ v0 t0, busRead 0x7FFD#16 wSta = .ok v0 t0 ∧
      ∃ v1 t1, busRead (BitVec.ofNat 16 ((0x7FFD#16).toNat + 1)) t0 = .ok v1 t1 ∧
      ∃ v2 t2, busRead (BitVec.ofNat 16 ((0x7FFD#16).toNat + 2)) t1 = .ok v2 t2 ∧
      ∃ e t, busRead (BitVec.ofNat 16 ((0x7FFD#16).toNat + 3)) t2 = .fault e t :=
  ⟨⟨rfl, rfl⟩, ⟨_, _, rfl, _, _, rfl, _, _, rfl, _, _, rfl⟩, ⟨_, _, rfl⟩, ⟨_, _, rfl, _, _, rfl⟩, ⟨_, _, rfl, _, _, rfl, _, _, rfl⟩,
    _, _, rfl, _, _, rfl, _, _, rfl, _, _, rfl⟩

/-- For CommandGrammar: words and a word that is none; an argument that fits, one that does not, one in error; characters
and tokens; the empty line with and without a last command. -/
theorem test_witness_CommandGrammar :
    isOneOf ['c'] ["continue", "c"] ∧ isOneOf ['?'] ["help", "h", "?"] ∧ ¬isOneOf ['x'] commandNames ∧ commandNames.length = 22 ∧
    (symbolAddresses paramsVD3 "65535".toList = [] ∧ parseNumber "65535".toList = some 65535) ∧
    (symbolAddresses paramsVD3 "65536".toList = [] ∧ parseNumber "65536".toList = some 65536) ∧
    resolve paramsVD3 0xF000#16 "dup".toList = .error .ambiguousSymbol ∧ ['z'] ∉ [['a'], ['x'], ['y']] ∧
    (∀ c ∈ "read 1".toList, ¬(65 ≤ c.toNat ∧ c.toNat ≤ 90)) ∧ '\t' ∈ separators ∧
    tokens "a b".toList ≠ [] ∧ tokens "  ".toList = [] ∧ State.reset.dbg.lastCommand = none ∧
    { Dbg.powerOn with lastCommand := some ['c'] }.lastCommand = some ['c'] :=
  ⟨by unfold isOneOf; decide, by unfold isOneOf; decide, by unfold isOneOf; decide, rfl, by decide, by decide, rfl,
    by decide, by simp, by simp [separators], by decide, by decide, rfl, rfl⟩

/-- The letters A and Z differ from a and z in case. -/
theorem test_witness_SameLetter : List.Forall₂ SameLetter ['A', 'z', '$'] ['a', 'Z', '$'] ∧ IsToken "$ff".toList :=
  ⟨.cons (.inr ⟨0, by decide, .inl ⟨by decide, by decide⟩⟩)
      (.cons (.inr ⟨25, by decide, .inr ⟨by decide, by decide⟩⟩) (.cons (.inl rfl) .nil)), by decide, by simp [separators]⟩

/-- For ArgumentRule: a symbol with one address, one with two, one with none; numbers in the three spellings, and none. -/
theorem test_witness_ArgumentRule :
    ((∃ e ∈ paramsVD3.symbols, lowerText e.label = "done".toList ∧ e.address = 0xF008#16) ∧
      ∀ e ∈ paramsVD3.symbols, lowerText e.label = "done".toList → e.address = 0xF008#16) ∧
    (∃ e ∈ paramsVD3.symbols, ∃ e' ∈ paramsVD3.symbols, lowerText e.label = "dup".toList ∧ lowerText e'.label = "dup".toList ∧
      e.address ≠ e'.address) ∧
    (∀ e ∈ paramsVD3.symbols, lowerText e.label ≠ "$ff".toList) :=
  ⟨⟨by decide, by decide⟩, by decide, by decide⟩

theorem test_witness_NumberIs :
    NumberIs "$ff".toList 255 ∧ NumberIs "0x1a".toList 26 ∧ NumberIs "1000".toList 1000 ∧ (∀ n, ¬NumberIs ['z'] n) :=
  ⟨.inl ⟨['f', 'f'], rfl, by decide, [15, 15], .cons (by unfold DigitWorth; decide) (.cons (by unfold DigitWorth; decide) .nil),
      rfl⟩,
    .inr (.inl ⟨['1', 'a'], rfl, by decide, [1, 10], .cons (by unfold DigitWorth; decide)
      (.cons (by unfold DigitWorth; decide) .nil), rfl⟩),
    .inr (.inr ⟨by decide, [1, 0, 0, 0], .cons (by unfold DigitWorth; decide) (.cons (by unfold DigitWorth; decide)
      (.cons (by unfold DigitWorth; decide) (.cons (by unfold DigitWorth; decide) .nil))), rfl⟩),
    by
      rintro n (⟨ds, h, _⟩ | ⟨ds, h, _⟩ | ⟨_, vs, h, _⟩)
      · simp at h
      · simp at h
      · cases h with
        | cons h _ =>
          obtain ⟨h1, h2⟩ := h
          simp at h2
          omega⟩

theorem test_witness_DebuggerChangesNoCpu :
    (∃ t, takeLine .nop "ba $1000".toList State.reset = .stay t) ∧
    (∃ t, takeLine .nop ['s'] State.reset = .release t) ∧ ∃ t, takeLine .nop ['q'] State.reset = .halt t :=
  ⟨⟨_, rfl⟩, ⟨_, rfl⟩, _, rfl⟩

/-- Paused at a NOP, an observer still to be called, with these lines to come. -/
def pausedWith (lines : List String) : State :=
  { State.reset with run := .paused .nop [.observer 7] false, commands := lines.map String.toList }

/-- Every result of a line; the monitors after DBG let the instruction go, or another DBG pauses; `exit`. -/
theorem test_witness_PausedMachine :
    ((pausedWith []).run = .paused .nop [.observer 7] false ∧ (pausedWith []).agenda = [] ∧ (pausedWith []).commands = []) ∧
    (∃ t, takeLine .nop "help".toList (pausedWith []) = .stay t) ∧
    (∃ t, takeLine .nop "step".toList (pausedWith []) = .release t) ∧
    (∃ t, takeLine .nop "exit".toList (pausedWith []) = .halt t) ∧
    (∃ f, takeLine .nop "read $9000".toList (pausedWith []) = .fault f) ∧
    (pausedWith ["help"]).commands = "help".toList :: [] ∧
    ((∃ u, runHooks .nop [.observer 7] { pausedWith [] with run := .running } = .go u) ∧
      ∃ u, runHooks .nop [.observer 7, .dbg] { pausedWith [] with run := .running } = .pause u) ∧
    tokens "quit".toList ≠ [] ∧ parseCommand Params.default 0x0000#16 "quit".toList = .exit ∧ Monitor.dbg ∉ [Monitor.observer 7] :=
  ⟨⟨rfl, rfl, rfl⟩, ⟨_, rfl⟩, ⟨_, rfl⟩, ⟨_, rfl⟩, ⟨_, rfl⟩, rfl, ⟨⟨_, rfl⟩, _, rfl⟩, by decide, by decide, by decide⟩

theorem test_witness_HaltChannel :
    (State.reset.run = .running ∧ State.reset.agenda = [] ∧ { State.reset with haltStatus := some 2 }.haltStatus = some 2) ∧
    ({ State.reset with agenda := [.halt 2] }.agenda = .halt 2 :: [] ∧ (2 : Int) ≠ 0) ∧
    ({ pausedWith [] with agenda := [.halt 2] }.run = .paused .nop [.observer 7] false ∧
      { pausedWith [] with haltStatus := some 2 }.run = .paused .nop [.observer 7] false ∧
      { pausedWith [] with haltStatus := some 2 }.agenda = [] ∧ { pausedWith [] with haltStatus := some 2 }.commands = []) ∧
    { State.reset with run := .halted 0 }.run = .halted 0 ∧
    { State.reset with run := .faulted (.unknownOpcode 0x0000#16 0x02#8) }.run = .faulted (.unknownOpcode 0x0000#16 0x02#8) :=
  ⟨⟨rfl, rfl, rfl⟩, ⟨rfl, by decide⟩, ⟨rfl, rfl, rfl, rfl⟩, rfl, rfl⟩

/-- A vector in ROM, one in an unmapped place, one whose second byte is unmapped. -/
theorem test_witness_CpuReset :
    (∃ l t, busRead wSta.params.resetVector wSta = .ok l t ∧
      ∃ h u, busRead (BitVec.ofNat 16 (wSta.params.resetVector.toNat + 1)) t = .ok h u) ∧
    (∃ e t, busRead 0xFFFC#16 (wOn mapE 0xFF#8 []) = .fault e t) ∧
    ∃ l t, busRead 0x7FFF#16 (wOn mapE 0xFF#8 []) = .ok l t ∧
      ∃ e u, busRead (BitVec.ofNat 16 ((0x7FFF#16).toNat + 1)) t = .fault e u :=
  ⟨⟨_, _, rfl, _, _, rfl⟩, ⟨_, _, rfl⟩, _, _, rfl, _, _, rfl⟩

theorem test_witness_ResetValues :
    bAcia ∈ State.reset.bus ∧ (∃ d, bAcia.device = .acia d) ∧ bSpi ∈ State.reset.bus ∧ ∃ p, bSpi.device = .spi p :=
  ⟨by decide, ⟨_, rfl⟩, by decide, _, rfl⟩

end Sys2Proof.Tests
end

/-! # Encoding (`30_encoding.md`): the opcode map, the operand of every mode, effective addresses and word reads -/

namespace Sys2Proof

open Sys2Proof.Machine Sys2Proof.Claims

/-! ### The opcode map (`30_encoding.md` R98) -/

/-- The map has each of the 151 instructions, under its mnemonic. -/
theorem opcode_mem_opcodeMap (i : Instr) : (i.mode, i.opcode.toNat) ∈ opcodeMap i.mnemonic := by
  cases i <;> exact of_decide_eq_true rfl

/-- The bytes after a defined opcode decide neither the mnemonic nor the mode (`30_encoding.md` R82). -/
theorem decodeWith_other_bytes {op c1 c2 : Byte} {j : Instr} (h : decodeWith op c1 c2 = some j) (b1 b2 : Byte) :
    ∃ i, decodeWith op b1 b2 = some i ∧ i.mnemonic = j.mnemonic ∧ i.mode = j.mode := by
  obtain ⟨hop, _, _⟩ := decodeWith_bytes h
  obtain ⟨i, hi, _, hm, hd⟩ := opcodeMap_all j b1 b2
  exact ⟨i, hop ▸ hi, hm, hd⟩

/-- Every entry of the map decodes to its mnemonic and mode, the bytes after the opcode being 0. -/
theorem decodeWith_of_mem_opcodeMap_zero (m : Mnemonic) :
    ∀ e ∈ opcodeMap m, (decodeWith (BitVec.ofNat 8 e.2) 0#8 0#8).map (fun j => (j.mnemonic, j.mode)) = some (m, e.1) := by
  cases m <;> decide

theorem decodeWith_of_mem_opcodeMap {m : Mnemonic} {mode : Mode} {n : Nat} (h : (mode, n) ∈ opcodeMap m) (b1 b2 : Byte) :
    ∃ i, decodeWith (BitVec.ofNat 8 n) b1 b2 = some i ∧ i.mnemonic = m ∧ i.mode = mode := by
  obtain ⟨j, hj, hjm⟩ := Option.map_eq_some_iff.mp (decodeWith_of_mem_opcodeMap_zero m _ h)
  obtain ⟨rfl, rfl⟩ := Prod.mk.inj hjm
  exact decodeWith_other_bytes hj b1 b2

/-- The count of R98. -/
theorem defined_opcodes_count :
    ((List.range 256).filter fun n => (opcodeLength (BitVec.ofNat 8 n)).isSome).length = 151 := by rfl

/-! ### The operand of every addressing mode (`30_encoding.md` R83 to R96) -/

/-- The operand that a mode makes of the operand byte and the operand word; in mode ABS the mnemonic says whether the
word is a target (R90). -/
def operandOf (m : Mnemonic) : Mode → Byte → Addr → Operand
  | .IMP, _, _ => .implied
  | .ACC, _, _ => .accumulator
  | .IMM, v, _ => .immediate v
  | .ZP, v, _ => .memory (.zeroPage v)
  | .ZPX, v, _ => .memory (.zeroPageX v)
  | .ZPY, v, _ => .memory (.zeroPageY v)
  | .ABS, _, w => if m ∈ [Mnemonic.JMP, .JSR] then .target w else .memory (.absolute w)
  | .ABX, _, w => .memory (.absoluteX w)
  | .ABY, _, w => .memory (.absoluteY w)
  | .IND, _, w => .indirect w
  | .IZX, v, _ => .memory (.indexedIndirect v)
  | .IZY, v, _ => .memory (.indirectIndexed v)
  | .REL, v, _ => .relative v

theorem operand_eq_operandOf (i : Instr) : i.operand = operandOf i.mnemonic i.mode i.record.op8 i.record.op16 := by
  cases i <;> rfl

theorem operand_of_mode (i : Instr) {mode : Mode} (h : i.mode = mode) :
    i.operand = operandOf i.mnemonic mode i.record.op8 i.record.op16 := by
  rw [← h]; exact operand_eq_operandOf i

end Sys2Proof

namespace Sys2Proof.Machine

open Sys2Proof

/-! ### Address arithmetic of the operand rules -/

/-- A sum of bytes as an address wraps inside page zero (`30_encoding.md` R88, R89, R94). -/
theorem zext_add_eq_ofNat (a b : Byte) : zext (a + b) = BitVec.ofNat 16 ((a.toNat + b.toNat) % 256) := by
  rw [zext_eq_ofNat, BitVec.toNat_add]

/-- A byte added to an address wraps mod 65536 (`30_encoding.md` R91, R92, R95). -/
theorem addr_add_zext (a : Addr) (b : Byte) : a + zext b = BitVec.ofNat 16 (a.toNat + b.toNat) := by
  rw [zext_eq_ofNat, addr_add_ofNat]

/-! ### Two reads that make a word -/

/-- A word of which the low byte is read at `first`, then the high byte at `second`: what 16-bit reads and the pointer
reads of page zero have in common (`20_memory.md` R58, `30_encoding.md` R94, R95). -/
def readWord (first second : Addr) (s : State) : Res Addr :=
  (busRead first s).bind fun l t => (busRead second t).bind fun h u => .ok (word h l) u

theorem memRead16_eq_readWord (a : Addr) (s : State) : memRead16 a s = readWord a (BitVec.ofNat 16 (a.toNat + 1)) s := by
  rw [← addr_add_ofNat]; rfl

theorem zeroPagePointer_eq_readWord (z : Byte) (s : State) : zeroPagePointer z s = readWord (zext z) (zext (z + 1#8)) s := rfl

/-- How a word read ends: both reads complete, or the first of them that faults is the fault. -/
theorem readWord_outcomes (first second : Addr) (s : State) :
    (∀ l t h u, busRead first s = .ok l t → busRead second t = .ok h u →
      readWord first second s = .ok (BitVec.ofNat 16 (256 * h.toNat + l.toNat)) u) ∧
    (∀ e t, busRead first s = .fault e t → readWord first second s = .fault e t) ∧
    (∀ l t e u, busRead first s = .ok l t → busRead second t = .fault e u → readWord first second s = .fault e u) := by
  unfold readWord
  exact ⟨fun l t h u hl hh => by rw [hl, Res.bind_ok, hh, Res.bind_ok, word_eq_ofNat],
    fun e t hl => by rw [hl, Res.bind_fault],
    fun l t e u hl hh => by rw [hl, Res.bind_ok, hh, Res.bind_fault]⟩

/-- The pointer of mode IZX lies at `Op8 + X`, wrapping inside page zero (`30_encoding.md` R94). -/
theorem effectiveAddress_indexedIndirect (zp : Byte) (s : State) :
    effectiveAddress (.indexedIndirect zp) s =
      readWord (BitVec.ofNat 16 ((zp.toNat + s.x.toNat) % 256)) (BitVec.ofNat 16 ((zp.toNat + s.x.toNat + 1) % 256)) s := by
  have hsecond : zext (zp + s.x + 1#8) = BitVec.ofNat 16 ((zp.toNat + s.x.toNat + 1) % 256) := by
    rw [zext_add_eq_ofNat, BitVec.toNat_add]; simp
  rw [effectiveAddress, zeroPagePointer_eq_readWord, hsecond, zext_add_eq_ofNat]

/-- The pointer of mode IZY lies at `Op8`, its second byte wrapping inside page zero; `Y` is added to the word read
(`30_encoding.md` R95). -/
theorem effectiveAddress_indirectIndexed (zp : Byte) (s : State) :
    effectiveAddress (.indirectIndexed zp) s =
      (readWord (BitVec.ofNat 16 zp.toNat) (BitVec.ofNat 16 ((zp.toNat + 1) % 256)) s).map fun w => w + zext s.y := by
  have hsecond : zext (zp + 1#8) = BitVec.ofNat 16 ((zp.toNat + 1) % 256) := zext_add_eq_ofNat zp 1#8
  rw [effectiveAddress, zeroPagePointer_eq_readWord, hsecond, zext_eq_ofNat zp]

end Sys2Proof.Machine

namespace Sys2Proof.Proofs

open Sys2Proof Sys2Proof.Machine Sys2Proof.Claims

/-- Settles O3: the opcode of each instruction stands in the map under its mnemonic; an entry of the map decodes
because it does with zero operand bytes, and those bytes decide neither mnemonic nor mode. -/
theorem opcodeMap : Obligations.OpcodeMap := by
  refine ⟨fun op b1 b2 i h => ?_, fun m mode n h b1 b2 => decodeWith_of_mem_opcodeMap h b1 b2, defined_opcodes_count⟩
  obtain ⟨hop, _, _⟩ := decodeWith_bytes h
  exact ⟨hop, hop ▸ opcode_mem_opcodeMap i⟩

/-- Settles O41: each word is two reads in order (`readWord`), and what sequencing does with a fault is the rest. -/
theorem wordReads : Obligations.WordReads := by
  refine ⟨fun a s => ?_, fun zp s first second hf hs => ?_, fun zp s first second hf hs => ?_, fun s => ?_⟩
  · rw [memRead16_eq_readWord]; exact readWord_outcomes _ _ s
  · rw [effectiveAddress_indexedIndirect, ← hf, ← hs]; exact readWord_outcomes _ _ s
  · rw [effectiveAddress_indirectIndexed, ← hf, ← hs]
    obtain ⟨hok, hlow, hhigh⟩ := readWord_outcomes first second s
    exact ⟨fun l t h u hl hh => by rw [hok l t h u hl hh, Res.map_ok, zext_eq_ofNat, ← BitVec.ofNat_add],
      fun e t hl => by rw [hlow e t hl, Res.map_fault],
      fun l t e u hl hh => by rw [hhigh l t e u hl hh, Res.map_fault]⟩
  · exact ⟨fun v => rfl, fun o ea t h => by rw [loadSource, h, Res.bind_ok],
      fun o e t h => by rw [loadSource, h, Res.bind_fault]⟩

/-- Settles O40: the operand is the table of the modes (`operandOf`), checked on the 151 instructions; the effective
addresses are sums of bytes and words, taken as numbers. -/
theorem directAddresses : Obligations.DirectAddresses := by
  refine ⟨fun i => ?_, fun zp addr s => ?_⟩
  · and_intros <;> exact operand_of_mode i
  · rw [← zext_eq_ofNat, ← zext_add_eq_ofNat, ← zext_add_eq_ofNat, ← addr_add_zext, ← addr_add_zext]
    exact ⟨rfl, rfl, rfl, rfl, rfl, rfl⟩

end Sys2Proof.Proofs

/-! # Loads, stores and transfers (`40_load_store_transfer.md`), and what their rules share with later ones: the forms of
a mnemonic, `setNZ` as numbers, and how a sequential step ends -/

namespace Sys2Proof.Machine

open Sys2Proof Sys2Proof.Claims

/-! ### The forms of a mnemonic (`30_encoding.md` R98) -/

/-- The opcode map gives all the forms of a mnemonic: an instruction's entry stands under its own mnemonic, and the
opcode of an entry decodes to the mnemonic it stands under. -/
theorem hasForms_opcodeMap (m : Mnemonic) : HasForms m ((opcodeMap m).map fun e => (e.1, BitVec.ofNat 8 e.2)) := by
  refine fun i => ⟨fun h => ?_, fun h => ?_⟩
  · exact List.mem_map.mpr ⟨_, h ▸ opcode_mem_opcodeMap i, by simp⟩
  · obtain ⟨e, he, hi⟩ := List.mem_map.mp h
    obtain ⟨-, hop⟩ := Prod.mk.inj hi
    obtain ⟨j, hj, -, hji, -⟩ := decodeWith_opcode i
    obtain ⟨k, hk, hkm, -⟩ := decodeWith_of_mem_opcodeMap he 0#8 0#8
    rw [hop, hj] at hk
    rw [← hji, Option.some.inj hk, hkm]

/-! ### `setNZ` as numbers (`00_scope.md` R12) -/

theorem Flags.setNZ_eq_nz (f : Flags) (v : Byte) : f.setNZ v = nz f v := by
  have hn : bit v 7 = decide (128 ≤ v.toNat) := BitVec.msb_eq_decide v
  have hz : (v == 0#8) = decide (v.toNat = 0) := by
    rw [beq_eq_decide, decide_eq_decide]; exact BitVec.toNat_inj.symm
  rw [Flags.setNZ, nz, hn, hz]

theorem State.setNZ_eq_nz (s : State) (v : Byte) : s.setNZ v = { s with flags := nz s.flags v } := by
  rw [State.setNZ, Flags.setNZ_eq_nz]; rfl

/-- An operation that ends by `setNZ(v)`. -/
theorem Res.ok_setNZ (s : State) (v : Byte) : Res.ok () (s.setNZ v) = .ok () { s with flags := nz s.flags v } :=
  congrArg (Res.ok ()) (State.setNZ_eq_nz s v)

/-! ### How a sequential step ends (`30_encoding.md` R80, `60_exceptions.md` R292) -/

theorem nextPc_eq_after (i : Instr) (s : State) : nextPc i s = after s i.length := addr_add_ofNat _ _

section
variable {i : Instr} {f : State → Res Unit} {s t : State}

theorem exec_of_ok (hx : exec i s = runSequential i f s) (h : f s = .ok () t) :
    exec i s = .next { t with pc := after s i.length } := by
  rw [hx, runSequential_next.mpr ⟨t, h, rfl⟩, nextPc_eq_after]; rfl

theorem faultsWith_of_fault {e : BusError} (hx : exec i s = runSequential i f s) (h : f s = .fault e t) :
    FaultsWith i s e := by
  rw [FaultsWith, hx, runSequential, runControl, h, Res.bind_fault]; rfl

end

/-! ### The three shapes of rule -/

/-- A load whose operation reads the operand, puts it into a register and sets `N` and `Z`. The operand read changes
no flag, so the flags it starts from are those before the step. -/
theorem loadsInto_of_exec {m : Mnemonic} {put : State → Byte → State} {op : Source → State → Res Unit}
    (hx : ∀ (i : Instr) (src : Source) (s : State), i.mnemonic = m → i.operand = src.operand →
      exec i s = runSequential i (op src) s)
    (hop : ∀ src s, op src s = (loadSource src s).bind fun v t => .ok () ((put t v).setNZ v))
    (hput : ∀ t v, (put t v).flags = t.flags) : LoadsInto m put := by
  refine fun i src s hm ho => ⟨fun v t hl => ?_, fun e t hl => ?_⟩
  · have hflags : (put t v).flags = s.flags := (hput t v).trans (SameCpu.loadSource hl).flags
    rw [exec_of_ok (hx i src s hm ho) (by rw [hop, hl, Res.bind_ok]), State.setNZ_eq_nz, hflags]
  · exact faultsWith_of_fault (hx i src s hm ho) (by rw [hop, hl, Res.bind_fault])

/-- How a pure store ends: pointer reads and write complete, or the first of them that faults is the fault
(`30_encoding.md` R97). -/
theorem storeByte_outcomes (o : MemOperand) (v : Byte) (s : State) :
    (∀ ea t u, effectiveAddress o s = .ok ea t → busWrite ea v t = .ok () u → storeByte o v s = .ok () u) ∧
    (∀ e t, effectiveAddress o s = .fault e t → storeByte o v s = .fault e t) ∧
    (∀ ea t e u, effectiveAddress o s = .ok ea t → busWrite ea v t = .fault e u → storeByte o v s = .fault e u) :=
  ⟨fun _ _ _ ha hw => by rw [storeByte, ha, Res.bind_ok, hw], fun _ _ ha => by rw [storeByte, ha, Res.bind_fault],
    fun _ _ _ _ ha hw => by rw [storeByte, ha, Res.bind_ok, hw]⟩

/-- A store whose operation is a pure store of the register as it was before the step. -/
theorem storesFrom_of_exec {m : Mnemonic} {reg : State → Byte}
    (hx : ∀ (i : Instr) (o : MemOperand) (s : State), i.mnemonic = m → i.operand = .memory o →
      exec i s = runSequential i (fun s => storeByte o (reg s) s) s) : StoresFrom m reg := by
  intro i o s hm ho
  obtain ⟨hok, hpointer, hwrite⟩ := storeByte_outcomes o (reg s) s
  exact ⟨fun ea t u ha hw => exec_of_ok (hx i o s hm ho) (hok ea t u ha hw),
    fun e t ha => faultsWith_of_fault (hx i o s hm ho) (hpointer e t ha),
    fun ea t e u ha hw => faultsWith_of_fault (hx i o s hm ho) (hwrite ea t e u ha hw)⟩

/-- A mnemonic of the one form `op` whose operation always completes. -/
theorem implied_of_exec {m : Mnemonic} {op : Byte} {effect : State → State} {f : State → Res Unit}
    (hforms : HasForms m [(.IMP, op)]) (hx : ∀ (i : Instr) (s : State), i.mnemonic = m → exec i s = runSequential i f s)
    (hf : ∀ s, f s = .ok () (effect s)) : Implied m op effect := by
  refine ⟨hforms, fun i s hm => ?_⟩
  have hmode : i.mode = .IMP := (Prod.mk.inj (List.mem_singleton.mp ((hforms i).mp hm))).1
  have hlength : i.length = 1 := by rw [Instr.length, hmode]; rfl
  rw [exec_of_ok (hx i s hm) (hf s), hlength]

end Sys2Proof.Machine

namespace Sys2Proof.Proofs

open Sys2Proof Sys2Proof.Machine Sys2Proof.Claims

/-- Settles O19: each load reads its operand, puts it and sets `N` and `Z` (`loadsInto_of_exec`). -/
theorem loadRules : Obligations.LoadRules :=
  ⟨hasForms_opcodeMap .LDA, loadsInto_of_exec (fun _ _ s hm ho => exec_of_LDA hm ho s) (fun _ _ => rfl) fun _ _ => rfl,
    hasForms_opcodeMap .LDX, loadsInto_of_exec (fun _ _ s hm ho => exec_of_LDX hm ho s) (fun _ _ => rfl) fun _ _ => rfl,
    hasForms_opcodeMap .LDY, loadsInto_of_exec (fun _ _ s hm ho => exec_of_LDY hm ho s) (fun _ _ => rfl) fun _ _ => rfl⟩

/-- Settles O20: each store is `storeByte` of its register (`storesFrom_of_exec`). -/
theorem storeRules : Obligations.StoreRules :=
  ⟨hasForms_opcodeMap .STA, storesFrom_of_exec fun _ _ s hm ho => exec_of_STA hm ho s,
    hasForms_opcodeMap .STX, storesFrom_of_exec fun _ _ s hm ho => exec_of_STX hm ho s,
    hasForms_opcodeMap .STY, storesFrom_of_exec fun _ _ s hm ho => exec_of_STY hm ho s⟩

/-- Settles O21: each transfer is one change of the CPU state; the five that set `N` and `Z` do it by `setNZ`. -/
theorem transferRules : Obligations.TransferRules :=
  ⟨implied_of_exec (hasForms_opcodeMap .TAX) (fun _ s hm => exec_of_TAX hm s) fun s => Res.ok_setNZ (s.setX s.a) s.a,
    implied_of_exec (hasForms_opcodeMap .TAY) (fun _ s hm => exec_of_TAY hm s) fun s => Res.ok_setNZ (s.setY s.a) s.a,
    implied_of_exec (hasForms_opcodeMap .TXA) (fun _ s hm => exec_of_TXA hm s) fun s => Res.ok_setNZ (s.setA s.x) s.x,
    implied_of_exec (hasForms_opcodeMap .TYA) (fun _ s hm => exec_of_TYA hm s) fun s => Res.ok_setNZ (s.setA s.y) s.y,
    implied_of_exec (hasForms_opcodeMap .TSX) (fun _ s hm => exec_of_TSX hm s) fun s => Res.ok_setNZ (s.setX s.sp) s.sp,
    implied_of_exec (hasForms_opcodeMap .TXS) (fun _ s hm => exec_of_TXS hm s) fun _ => rfl⟩

end Sys2Proof.Proofs

/-! # The stack (`41_stack.md`) -/

namespace Sys2Proof.Machine

open Sys2Proof Sys2Proof.Claims

/-! ### Push and pull (`41_stack.md` R130, R131) -/

/-- A bus write that faults changes nothing: no device is found, or ROM rejects the byte. -/
theorem busWrite_fault {a : Addr} {v : Byte} {s t : State} {e : BusError} (h : busWrite a v s = .fault e t) : t = s := by
  unfold busWrite at h
  split at h
  · cases h; rfl
  · next b _ =>
    cases hd : b.device <;> simp only [hd] at h
    case rom =>
      split at h
      · cases h; rfl
      · cases h
    all_goals cases h

theorem push_of_busWrite_ok {v : Byte} {s t : State} (h : busWrite s.stackAddr v s = .ok () t) :
    push v s = .ok () { t with sp := BitVec.ofNat 8 (s.sp.toNat + 255) } := by
  rw [push, h, Res.bind_ok, (SameCpu.busWrite h).sp, byte_sub_one]; rfl

theorem push_of_busWrite_fault {v : Byte} {s t : State} {e : BusError} (h : busWrite s.stackAddr v s = .fault e t) :
    push v s = .fault e t := by rw [push, h, Res.bind_fault]

theorem pull_eq_busRead (s : State) :
    pull s = busRead (BitVec.ofNat 16 (s.params.stackPage.toNat + (s.sp.toNat + 1) % 256))
      { s with sp := BitVec.ofNat 8 (s.sp.toNat + 1) } := by
  rw [pull, stackAddr_eq_ofNat, byte_add_one, State.setSp_params, State.setSp_sp, BitVec.toNat_ofNat]; rfl

/-! ### The status byte (`41_stack.md` R133, R135) -/

/-- The pushed status byte is `N V 1 1 D I Z C`, from bit 7 down. -/
theorem Flags.pushed_toNat (f : Flags) :
    f.pushed.toNat = 128 * f.n.toNat + 64 * f.v.toNat + 32 + 16 + 8 * f.d.toNat + 4 * f.i.toNat + 2 * f.z.toNat +
      f.c.toNat := by
  obtain ⟨n, v, d, i, z, c⟩ := f; revert n v d i z c; decide

/-! ### The instructions that pull (`41_stack.md` R134, R135) -/

/-- `PLA` sets `N` and `Z` in the flags from before the step, which the pull does not change. -/
theorem pla_of_pull_ok {s t : State} {v : Byte} (h : pull s = .ok v t) :
    pla s = .ok () { t with a := v, flags := nz s.flags v } := by
  have hflags : t.flags = s.flags := (SameCpu.pull h).flags
  rw [pla, h, Res.bind_ok, Res.ok_setNZ, State.setA_flags, hflags]; rfl

theorem pla_of_pull_fault {s t : State} {e : BusError} (h : pull s = .fault e t) : pla s = .fault e t := by
  rw [pla, h, Res.bind_fault]

theorem plp_of_pull_ok {s t : State} {v : Byte} (h : pull s = .ok v t) :
    plp s = .ok () { t with flags := ⟨v[7], v[6], v[3], v[2], v[1], v[0]⟩ } := by
  rw [plp, h, Res.bind_ok]; rfl

theorem plp_of_pull_fault {s t : State} {e : BusError} (h : pull s = .fault e t) : plp s = .fault e t := by
  rw [plp, h, Res.bind_fault]

end Sys2Proof.Machine

namespace Sys2Proof.Proofs

open Sys2Proof Sys2Proof.Machine Sys2Proof.Claims

/-- Settles O22: the stack address is `STACK_PAGE + SP` as a number (`stackAddr_eq_ofNat`), the write of a push leaves
the pointer, and a write that faults leaves the whole state. -/
theorem pushAndPull : Obligations.PushAndPull := by
  refine ⟨fun v s t h => ?_, fun v s t e h => ?_, pull_eq_busRead⟩
  · rw [← stackAddr_eq_ofNat] at h; exact push_of_busWrite_ok h
  · rw [← stackAddr_eq_ofNat] at h; exact ⟨push_of_busWrite_fault h, busWrite_fault h⟩

/-- Settles O23: each instruction is its stack operation run sequentially; `SR | 0x30` is the pushed status byte. -/
theorem stackInstructions : Obligations.StackInstructions := by
  refine ⟨⟨hasForms_opcodeMap .PHA, hasForms_opcodeMap .PHP, fun s t h => ?_, fun s t e h => ?_, fun s t h => ?_,
    fun s t e h => ?_, fun s => Flags.pushed_toNat s.flags⟩,
    hasForms_opcodeMap .PLA, hasForms_opcodeMap .PLP, fun s t v h => ⟨?_, ?_⟩, fun s t e h => ⟨?_, ?_⟩⟩
  · exact exec_of_ok (exec_of_PHA rfl s) h
  · exact faultsWith_of_fault (exec_of_PHA rfl s) h
  · exact exec_of_ok (exec_of_PHP rfl s) h
  · exact faultsWith_of_fault (exec_of_PHP rfl s) h
  · exact exec_of_ok (exec_of_PLA rfl s) (pla_of_pull_ok h)
  · exact exec_of_ok (exec_of_PLP rfl s) (plp_of_pull_ok h)
  · exact faultsWith_of_fault (exec_of_PLA rfl s) (pla_of_pull_fault h)
  · exact faultsWith_of_fault (exec_of_PLP rfl s) (plp_of_pull_fault h)

end Sys2Proof.Proofs

/-! # Arithmetic (`42_arithmetic.md`) -/

namespace Sys2Proof.Machine

open Sys2Proof Sys2Proof.Claims

/-! ### The shapes of rule: an operand read and a change of the state, a read-modify-write on memory -/

/-- An instruction whose operation reads the operand and then always completes. -/
theorem exec_of_loadSource {i : Instr} {op : State → Res Unit} {src : Source} {s : State}
    {change : Byte → State → State} (hx : exec i s = runSequential i op s)
    (hop : op s = (loadSource src s).bind fun v t => .ok () (change v t)) :
    (∀ v t, loadSource src s = .ok v t → exec i s = .next { change v t with pc := after s i.length }) ∧
    (∀ e t, loadSource src s = .fault e t → FaultsWith i s e) :=
  ⟨fun v t hl => exec_of_ok hx (by rw [hop, hl, Res.bind_ok]),
    fun e t hl => faultsWith_of_fault (t := t) hx (by rw [hop, hl, Res.bind_fault])⟩

/-- How a read-modify-write on memory ends: pointer reads, read and write complete, or the first of them that faults is
the fault (`30_encoding.md` R97). -/
theorem modify_memory_outcomes (o : MemOperand) (f : Byte → State → Byte × State) (s : State) :
    (∀ ea t v u w, effectiveAddress o s = .ok ea t → busRead ea t = .ok v u →
      busWrite ea (f v u).1 (f v u).2 = .ok () w → modify (.memory o) f s = .ok (f v u).1 w) ∧
    (∀ e t, effectiveAddress o s = .fault e t → modify (.memory o) f s = .fault e t) ∧
    (∀ ea t e u, effectiveAddress o s = .ok ea t → busRead ea t = .fault e u →
      modify (.memory o) f s = .fault e u) ∧
    (∀ ea t v u e w, effectiveAddress o s = .ok ea t → busRead ea t = .ok v u →
      busWrite ea (f v u).1 (f v u).2 = .fault e w → modify (.memory o) f s = .fault e w) := by
  simp only [modify]
  exact ⟨fun ea t v u w ha hr hw => by rw [ha, Res.bind_ok, hr, Res.bind_ok, hw, Res.map_ok],
    fun e t ha => by rw [ha, Res.bind_fault],
    fun ea t e u ha hr => by rw [ha, Res.bind_ok, hr, Res.bind_fault],
    fun ea t v u e w ha hr hw => by rw [ha, Res.bind_ok, hr, Res.bind_ok, hw, Res.map_fault]⟩

/-- A read-modify-write on memory that computes the result from the byte read and sets `N` and `Z` after the store. The
three accesses change no flag, so the flags it starts from are those before the step. -/
theorem modifies_of_exec {m : Mnemonic} {op : MemOperand → State → Res Unit} {result : Byte → Byte}
    (hx : ∀ (i : Instr) (o : MemOperand) (s : State), i.mnemonic = m → i.operand = .memory o →
      exec i s = runSequential i (op o) s)
    (hop : ∀ o s, op o s = (modify (.memory o) (fun v s => (result v, s)) s).bind fun r s => .ok () (s.setNZ r)) :
    Modifies m (fun _ v => result v) (fun f v => nz f (result v)) := by
  intro i o s hm ho
  obtain ⟨hok, hpointer, hread, hwrite⟩ := modify_memory_outcomes o (fun v s => (result v, s)) s
  have hfault : ∀ e t, modify (.memory o) (fun v s => (result v, s)) s = .fault e t → FaultsWith i s e :=
    fun e t h => faultsWith_of_fault (hx i o s hm ho) (by rw [hop, h, Res.bind_fault])
  refine ⟨fun ea t v u w ha hr hw => ?_, fun e t ha => hfault e t (hpointer e t ha),
    fun ea t e u ha hr => hfault e u (hread ea t e u ha hr),
    fun ea t v u e w ha hr hw => hfault e w (hwrite ea t v u e w ha hr hw)⟩
  have hflags : w.flags = s.flags :=
    (((SameCpu.effectiveAddress ha).trans (SameCpu.busRead hr)).trans (SameCpu.busWrite hw)).flags
  rw [exec_of_ok (hx i o s hm ho) (by rw [hop, hok ea t v u w ha hr hw, Res.bind_ok]), State.setNZ_eq_nz, hflags]

/-! ### Increments and decrements as numbers (`42_arithmetic.md` R148 to R153) -/

theorem inc_eq (o : MemOperand) (s : State) :
    inc o s = (modify (.memory o) (fun v s => (BitVec.ofNat 8 (v.toNat + 1), s)) s).bind fun r s => .ok () (s.setNZ r) := by
  simp only [inc, byte_add_one]

theorem dec_eq (o : MemOperand) (s : State) :
    dec o s = (modify (.memory o) (fun v s => (BitVec.ofNat 8 (v.toNat + 255), s)) s).bind
      fun r s => .ok () (s.setNZ r) := by
  simp only [dec, byte_sub_one]

theorem inx_eq (s : State) : inx s =
    .ok () { s with x := BitVec.ofNat 8 (s.x.toNat + 1), flags := nz s.flags (BitVec.ofNat 8 (s.x.toNat + 1)) } := by
  rw [inx, byte_add_one, Res.ok_setNZ]; rfl

theorem iny_eq (s : State) : iny s =
    .ok () { s with y := BitVec.ofNat 8 (s.y.toNat + 1), flags := nz s.flags (BitVec.ofNat 8 (s.y.toNat + 1)) } := by
  rw [iny, byte_add_one, Res.ok_setNZ]; rfl

theorem dex_eq (s : State) : dex s =
    .ok () { s with x := BitVec.ofNat 8 (s.x.toNat + 255), flags := nz s.flags (BitVec.ofNat 8 (s.x.toNat + 255)) } := by
  rw [dex, byte_sub_one, Res.ok_setNZ]; rfl

theorem dey_eq (s : State) : dey s =
    .ok () { s with y := BitVec.ofNat 8 (s.y.toNat + 255), flags := nz s.flags (BitVec.ofNat 8 (s.y.toNat + 255)) } := by
  rw [dey, byte_sub_one, Res.ok_setNZ]; rfl

/-! ### Bit 7 and equality of bytes as numbers -/

theorem bit_seven (v : Byte) : bit v 7 = decide (128 ≤ v.toNat) := BitVec.msb_eq_decide v

theorem byte_beq (v w : Byte) : (v == w) = decide (v.toNat = w.toNat) := by
  rw [beq_eq_decide, decide_eq_decide]; exact BitVec.toNat_inj.symm

/-! ### Compares (`42_arithmetic.md` R145 to R147) -/

theorem Flags.compare_eq (f : Flags) (r m : Byte) : f.compare r m =
    { f with
      c := decide (m.toNat ≤ r.toNat)
      z := decide (r.toNat = m.toNat)
      n := decide (128 ≤ (256 + r.toNat - m.toNat) % 256) } := by
  have hdiff : (r - m).toNat = (256 + r.toNat - m.toNat) % 256 := by rw [BitVec.toNat_sub]; congr 1; omega
  rw [Flags.compare, byte_beq, bit_seven, hdiff]

/-- A compare whose operation reads the operand and sets the flags from a register, which the read does not change. -/
theorem compares_of_exec {m : Mnemonic} {reg : State → Byte} {op : Source → State → Res Unit}
    (hx : ∀ (i : Instr) (src : Source) (s : State), i.mnemonic = m → i.operand = src.operand →
      exec i s = runSequential i (op src) s)
    (hop : ∀ src s, op src s = (loadSource src s).bind fun v t => .ok () (t.setFlags (t.flags.compare (reg t) v)))
    (hreg : ∀ s t, SameCpu s t → reg t = reg s) : Compares m reg := by
  intro i src s hm ho
  obtain ⟨hok, hfault⟩ := exec_of_loadSource (hx i src s hm ho) (hop src s)
  refine ⟨fun v t hl => ?_, hfault⟩
  have hcpu : SameCpu s t := .loadSource hl
  rw [hok v t hl, hreg s t hcpu, hcpu.flags, Flags.compare_eq]; rfl

/-! ### The settings of `ADC` and `SBC` (`42_arithmetic.md` R141, R143) -/

theorem decimalMode_iff (s : State) : decimalMode s.params s.flags = true ↔ decimalOn s := by
  simp [decimalMode, decimalOn]

theorem decimalRefused_iff (s : State) : decimalRefused s.params s.flags = true ↔ refuseOn s := by
  simp [decimalRefused, refuseOn]

theorem not_decimalOn_of_binaryOn {s : State} (h : binaryOn s) : ¬ decimalOn s :=
  fun ⟨hd, hp⟩ => by simp [binaryOn, hd, hp] at h

theorem not_refuseOn_of_binaryOn {s : State} (h : binaryOn s) : ¬ refuseOn s :=
  fun ⟨hd, hp⟩ => by simp [binaryOn, hd, hp] at h

theorem not_refuseOn_of_decimalOn {s : State} (h : decimalOn s) : ¬ refuseOn s :=
  fun ⟨_, hp⟩ => by simp [decimalOn, hp] at h

theorem adcResult_of_binaryOn {s : State} (h : binaryOn s) (m : Byte) :
    adcResult s.params s.flags s.a m = adcBinary s.flags s.a m :=
  if_neg ((decimalMode_iff s).not.mpr (not_decimalOn_of_binaryOn h))

theorem adcResult_of_decimalOn {s : State} (h : decimalOn s) (m : Byte) :
    adcResult s.params s.flags s.a m = adcDecimal s.flags s.a m := if_pos ((decimalMode_iff s).mpr h)

theorem sbcResult_of_binaryOn {s : State} (h : binaryOn s) (m : Byte) :
    sbcResult s.params s.flags s.a m = sbcBinary s.flags s.a m :=
  if_neg ((decimalMode_iff s).not.mpr (not_decimalOn_of_binaryOn h))

theorem sbcResult_of_decimalOn {s : State} (h : decimalOn s) (m : Byte) :
    sbcResult s.params s.flags s.a m = (sbcDecimal s.flags s.a m, (sbcBinary s.flags s.a m).2) :=
  if_pos ((decimalMode_iff s).mpr h)

/-- How `ADC` and `SBC` end: the operand read faults, else the model refuses if it is told to, else `A` and the flags
are those computed from the parameters, the flags and `A` before the step, which the read does not change. -/
theorem runArithmetic_outcomes (i : Instr) (src : Source) (f : Params → Flags → Byte → Byte → Byte × Flags) (s : State) :
    (∀ m t, loadSource src s = .ok m t → ¬ refuseOn s → runArithmetic i src f s = .next
      { t with
        a := (f s.params s.flags s.a m).1
        flags := (f s.params s.flags s.a m).2
        pc := after s i.length }) ∧
    (∀ m t, loadSource src s = .ok m t → refuseOn s →
      runArithmetic i src f s = .refused (.decimalArithmetic i.mnemonic)) ∧
    (∀ e t, loadSource src s = .fault e t →
      runArithmetic i src f s = .fault (e.toFault ⟨some s.pc, some i.opcode⟩)) := by
  have hread : ∀ m t, loadSource src s = .ok m t → t.params = s.params ∧ t.flags = s.flags ∧ t.a = s.a := fun m t hl =>
    ⟨(Effect.loadSource hl).kept.params, (SameCpu.loadSource hl).flags, (SameCpu.loadSource hl).a⟩
  refine ⟨fun m t hl hr => ?_, fun m t hl hr => ?_, fun e t hl => ?_⟩
  · obtain ⟨hp, hf, ha⟩ := hread m t hl
    have hsetting : ¬ decimalRefused t.params t.flags = true := by rwa [hp, hf, decimalRefused_iff]
    rw [← hp, ← hf, ← ha]
    simp only [runArithmetic, hl, if_neg hsetting, nextPc_eq_after]; rfl
  · obtain ⟨hp, hf, -⟩ := hread m t hl
    simp only [runArithmetic, hl, hp, hf, (decimalRefused_iff s).mpr hr, if_true]
  · simp only [runArithmetic, hl]; rfl

/-! ### Binary addition and subtraction as numbers (`42_arithmetic.md` R141, R143) -/

/-- The overflow bit: both operands have the sign that the wrapped sum has not, that is, the signed sum leaves
-128..127. -/
theorem overflow_bit {a m r : Byte} {c : Bool} (hr : r.toNat = (a.toNat + m.toNat + c.toNat) % 256) :
    bit ((a ^^^ r) &&& (m ^^^ r)) 7 =
      decide (signed a + signed m + c.toNat < -128 ∨ 127 < signed a + signed m + c.toNat) := by
  have hbits : bit ((a ^^^ r) &&& (m ^^^ r)) 7 = ((bit a 7 ^^ bit r 7) && (bit m 7 ^^ bit r 7)) := by simp [bit]
  have hc := c.toNat_le
  have ha := a.isLt
  have hm := m.isLt
  rw [hbits, bit_seven, bit_seven, bit_seven, hr, Bool.eq_iff_iff, decide_eq_true_iff]
  simp only [signed, Bool.and_eq_true, Bool.xor_iff_ne, ne_eq, decide_eq_decide, not_iff]
  split_ifs <;> omega

theorem addsBinary_adcBinary (s : State) (m : Byte) :
    AddsBinary s m (adcBinary s.flags s.a m).1 (adcBinary s.flags s.a m).2 := by
  have hr : (adcBinary s.flags s.a m).1.toNat = (s.a.toNat + m.toNat + s.flags.c.toNat) % 256 := BitVec.toNat_ofNat _ _
  exact
    { result := hr
      carry := rfl
      overflow := overflow_bit hr
      negative := bit_seven _
      zero := byte_beq _ 0#8
      decimal := rfl
      disable := rfl }

/-- Subtraction is addition of the complement: as a number it is `255 - m`, as a signed number `-1 - m`. -/
theorem subtractsBinary_of_addsBinary_complement {s : State} {m r : Byte} {f : Flags}
    (h : AddsBinary s (m ^^^ 0xFF#8) r f) : SubtractsBinary s m r f := by
  have hm := m.isLt
  have hcomp : (m ^^^ 0xFF#8).toNat = 255 - m.toNat := by
    rw [show m ^^^ 0xFF#8 = ~~~m from BitVec.xor_allOnes, BitVec.toNat_not]
  have hsigned : signed (m ^^^ 0xFF#8) = -1 - signed m := by
    unfold signed; rw [hcomp]; split <;> split <;> omega
  obtain ⟨hresult, hcarry, hoverflow, hnegative, hzero, hdecimal, hdisable⟩ := h
  rw [hcomp] at hresult hcarry
  rw [hsigned] at hoverflow
  refine ⟨?_, ?_, ?_, hnegative, hzero, hdecimal, hdisable⟩
  · rw [hresult]; congr 1; omega
  · rw [hcarry, decide_eq_decide]; omega
  · rw [hoverflow, decide_eq_decide]; omega

theorem subtractsBinary_sbcBinary (s : State) (m : Byte) :
    SubtractsBinary s m (sbcBinary s.flags s.a m).1 (sbcBinary s.flags s.a m).2 :=
  subtractsBinary_of_addsBinary_complement (addsBinary_adcBinary s _)

end Sys2Proof.Machine

namespace Sys2Proof.Proofs

open Sys2Proof Sys2Proof.Machine Sys2Proof.Claims

/-- Settles O24: the three ends of `runArithmetic`, with the sum that `adcResult` chooses. -/
theorem adcRule : Obligations.AdcRule := by
  refine ⟨hasForms_opcodeMap .ADC, fun i src s hm ho => ?_⟩
  obtain ⟨hok, hrefused, hfault⟩ := runArithmetic_outcomes i src adcResult s
  rw [← exec_of_ADC hm ho s, hm] at hrefused
  rw [← exec_of_ADC hm ho s] at hok hfault
  refine ⟨fun m t hl => ⟨fun hb => ?_, fun hd => ?_, hrefused m t hl⟩, hfault⟩
  · have hx := hok m t hl (not_refuseOn_of_binaryOn hb)
    rw [adcResult_of_binaryOn hb] at hx
    exact ⟨_, _, addsBinary_adcBinary s m, hx⟩
  · have hx := hok m t hl (not_refuseOn_of_decimalOn hd)
    rwa [adcResult_of_decimalOn hd] at hx

/-- Settles O26: the three ends of `runArithmetic`, with the difference that `sbcResult` chooses; its flags are the
binary ones in both modes. -/
theorem sbcRule : Obligations.SbcRule := by
  refine ⟨hasForms_opcodeMap .SBC, fun i src s hm ho => ?_⟩
  obtain ⟨hok, hrefused, hfault⟩ := runArithmetic_outcomes i src sbcResult s
  rw [← exec_of_SBC hm ho s, hm] at hrefused
  rw [← exec_of_SBC hm ho s] at hok hfault
  refine ⟨fun m t hl => ⟨fun hb => ?_, fun hd => ?_, hrefused m t hl⟩, hfault⟩
  · have hx := hok m t hl (not_refuseOn_of_binaryOn hb)
    rw [sbcResult_of_binaryOn hb] at hx
    exact ⟨_, _, subtractsBinary_sbcBinary s m, hx⟩
  · have hx := hok m t hl (not_refuseOn_of_decimalOn hd)
    rw [sbcResult_of_decimalOn hd] at hx
    exact ⟨_, _, subtractsBinary_sbcBinary s m, hx⟩

/-- Settles O27: each compare reads its operand and sets the flags from its register (`compares_of_exec`). -/
theorem compareRules : Obligations.CompareRules :=
  ⟨hasForms_opcodeMap .CMP,
    compares_of_exec (fun _ _ s hm ho => exec_of_CMP hm ho s) (fun _ _ => rfl) fun _ _ h => h.a,
    hasForms_opcodeMap .CPX,
    compares_of_exec (fun _ _ s hm ho => exec_of_CPX hm ho s) (fun _ _ => rfl) fun _ _ h => h.x,
    hasForms_opcodeMap .CPY,
    compares_of_exec (fun _ _ s hm ho => exec_of_CPY hm ho s) (fun _ _ => rfl) fun _ _ h => h.y⟩

/-- Settles O28: `INC` and `DEC` are read-modify-writes (`modifies_of_exec`), the other four one change of a register
(`implied_of_exec`). -/
theorem incDecRules : Obligations.IncDecRules :=
  ⟨hasForms_opcodeMap .INC, modifies_of_exec (fun _ _ s hm ho => exec_of_INC hm ho s) inc_eq,
    hasForms_opcodeMap .DEC, modifies_of_exec (fun _ _ s hm ho => exec_of_DEC hm ho s) dec_eq,
    implied_of_exec (hasForms_opcodeMap .INX) (fun _ s hm => exec_of_INX hm s) inx_eq,
    implied_of_exec (hasForms_opcodeMap .INY) (fun _ s hm => exec_of_INY hm s) iny_eq,
    implied_of_exec (hasForms_opcodeMap .DEX) (fun _ s hm => exec_of_DEX hm s) dex_eq,
    implied_of_exec (hasForms_opcodeMap .DEY) (fun _ s hm => exec_of_DEY hm s) dey_eq⟩

end Sys2Proof.Proofs

/-! # Logic, bit test, shifts and rotates (`43_logic_shift.md`) -/

namespace Sys2Proof.Machine

open Sys2Proof Sys2Proof.Claims

/-! ### Bitwise operations as numbers (`43_logic_shift.md` R161 to R164) -/

theorem byte_and (a b : Byte) : a &&& b = BitVec.ofNat 8 (a.toNat &&& b.toNat) := by
  rw [← BitVec.toNat_and, BitVec.ofNat_toNat, BitVec.setWidth_eq]

theorem byte_or (a b : Byte) : a ||| b = BitVec.ofNat 8 (a.toNat ||| b.toNat) := by
  rw [← BitVec.toNat_or, BitVec.ofNat_toNat, BitVec.setWidth_eq]

theorem byte_xor (a b : Byte) : a ^^^ b = BitVec.ofNat 8 (a.toNat ^^^ b.toNat) := by
  rw [← BitVec.toNat_xor, BitVec.ofNat_toNat, BitVec.setWidth_eq]

theorem Flags.bitTest_eq (f : Flags) (a m : Byte) :
    f.bitTest a m = { f with z := decide (a.toNat &&& m.toNat = 0), n := m[7], v := m[6] } := by
  rw [Flags.bitTest, byte_beq, BitVec.toNat_and]; rfl

/-! ### Operations of the accumulator and an operand (`43_logic_shift.md` R161 to R163) -/

/-- An operation that reads the operand, combines it with `A`, which the read does not change, and sets `N` and `Z`
from the result. -/
theorem combinesIntoA_of_exec {m : Mnemonic} {combine number : Byte → Byte → Byte} {op : Source → State → Res Unit}
    (hx : ∀ (i : Instr) (src : Source) (s : State), i.mnemonic = m → i.operand = src.operand →
      exec i s = runSequential i (op src) s)
    (hop : ∀ src s, op src s =
      (loadSource src s).bind fun v t => .ok () ((t.setA (combine t.a v)).setNZ (combine t.a v)))
    (hnumber : ∀ a v, combine a v = number a v) : CombinesIntoA m number := by
  intro i src s hm ho
  obtain ⟨hok, hfault⟩ := exec_of_loadSource (hx i src s hm ho) (hop src s)
  refine ⟨fun v t hl => ?_, hfault⟩
  have hcpu : SameCpu s t := .loadSource hl
  rw [hok v t hl, State.setNZ_eq_nz, State.setA_flags, hcpu.flags, hcpu.a, hnumber]; rfl

/-! ### Shifts and rotates as numbers (`43_logic_shift.md` R165 to R168) -/

theorem bit_seven_eq_topBit (v : Byte) : bit v 7 = topBit v := bit_seven v

theorem bit_zero_eq_lowBit (v : Byte) : bit v 0 = lowBit v := Nat.testBit_zero v.toNat

theorem byte_shiftLeft_one (v : Byte) : v <<< 1 = BitVec.ofNat 8 (2 * v.toNat) := by
  apply BitVec.eq_of_toNat_eq
  rw [BitVec.toNat_shiftLeft, BitVec.toNat_ofNat, Nat.shiftLeft_eq, pow_one, Nat.mul_comm]

theorem byte_shiftRight_one (v : Byte) : v >>> 1 = BitVec.ofNat 8 (v.toNat / 2) := by
  apply BitVec.eq_of_toNat_eq
  rw [BitVec.toNat_ushiftRight, BitVec.toNat_ofNat, Nat.shiftRight_eq_div_pow, pow_one]
  have hv := v.isLt
  omega

/-- A left shift leaves bit 0 empty: putting the carry there adds it. -/
theorem byte_shiftLeft_one_or (v : Byte) (c : Bool) :
    v <<< 1 ||| bitAt c 0 = BitVec.ofNat 8 (2 * v.toNat + c.toNat) := by
  have hc := c.toNat_le
  have hcarry : (bitAt c 0).toNat = c.toNat := by cases c <;> rfl
  have hshift : (v <<< 1).toNat = 2 ^ 1 * (v.toNat % 128) := by
    rw [byte_shiftLeft_one, BitVec.toNat_ofNat]; omega
  apply BitVec.eq_of_toNat_eq
  rw [BitVec.toNat_or, hcarry, hshift, ← Nat.two_pow_add_eq_or_of_lt (by omega), BitVec.toNat_ofNat]
  omega

/-- A right shift leaves bit 7 empty: putting the carry there adds 128 times the carry. -/
theorem byte_shiftRight_one_or (v : Byte) (c : Bool) :
    v >>> 1 ||| bitAt c 7 = BitVec.ofNat 8 (v.toNat / 2 + 128 * c.toNat) := by
  have hv := v.isLt
  have hc := c.toNat_le
  have hcarry : (bitAt c 7).toNat = 2 ^ 7 * c.toNat := by cases c <;> rfl
  have hshift : (v >>> 1).toNat = v.toNat / 2 := by
    rw [byte_shiftRight_one, BitVec.toNat_ofNat]; omega
  apply BitVec.eq_of_toNat_eq
  rw [BitVec.toNat_or, hcarry, hshift, Nat.or_comm, ← Nat.two_pow_add_eq_or_of_lt (by omega), BitVec.toNat_ofNat]
  omega

theorem shiftLeft_eq (f : Flags) (v : Byte) : shiftLeft v = (aslOf f v, topBit v) := by
  rw [shiftLeft, byte_shiftLeft_one, bit_seven_eq_topBit]; rfl

theorem shiftRight_eq (f : Flags) (v : Byte) : shiftRight v = (lsrOf f v, lowBit v) := by
  rw [shiftRight, byte_shiftRight_one, bit_zero_eq_lowBit]; rfl

theorem rotateLeft_eq (f : Flags) (v : Byte) : rotateLeft f.c v = (rolOf f v, topBit v) := by
  rw [rotateLeft, byte_shiftLeft_one_or, bit_seven_eq_topBit]; rfl

theorem rotateRight_eq (f : Flags) (v : Byte) : rotateRight f.c v = (rorOf f v, lowBit v) := by
  rw [rotateRight, byte_shiftRight_one_or, bit_zero_eq_lowBit]; rfl

/-! ### The rules of a shift on the accumulator and on memory -/

/-- The part of a shift before the store, as numbers: the result, and the state with the bit shifted out in `C`. -/
def shiftBeforeStore (result : Flags → Byte → Byte) (out : Byte → Bool) (v : Byte) (s : State) : Byte × State :=
  (result s.flags v, s.setC (out v))

/-- A state whose `C` is set first and whose `N` and `Z` are set from the result afterwards. -/
theorem setFlags_carry_setNZ (s : State) (f : Flags) (r : Byte) (c : Bool) :
    (s.setFlags { f with c := c }).setNZ r = { s with flags := shifted f r c } := by
  rw [State.setNZ_eq_nz]; rfl

section
variable {m : Mnemonic} {op : Target → State → Res Unit} {result : Flags → Byte → Byte} {out : Byte → Bool}

theorem shiftWith_eq_modify {shift : Bool → Byte → Byte × Bool} (hshift : ∀ f v, shift f.c v = (result f v, out v))
    (t : Target) (s : State) :
    shiftWith t shift s = (modify t (shiftBeforeStore result out) s).bind fun r s => .ok () (s.setNZ r) := by
  have hbefore : (fun v (s : State) => ((shift s.flags.c v).1, s.setC (shift s.flags.c v).2)) =
      shiftBeforeStore result out := by
    funext v s; rw [hshift]; rfl
  rw [shiftWith, hbefore]

variable
    (hx : ∀ (i : Instr) (t : Target) (s : State), i.mnemonic = m → i.operand = t.operand →
      exec i s = runSequential i (op t) s)
    (hop : ∀ t s, op t s = (modify t (shiftBeforeStore result out) s).bind fun r s => .ok () (s.setNZ r))
include hx hop

theorem modifiesA_of_shift : ModifiesA m result (fun f v => shifted f (result f v) (out v)) := by
  intro i s hm ho
  have hlength : i.length = 1 := by rw [Instr.length, Instr.mode, ho]; rfl
  have hresult : op .accumulator s = .ok ()
      { s with a := result s.flags s.a, flags := shifted s.flags (result s.flags s.a) (out s.a) } := by
    rw [hop, modify, Res.bind_ok, State.setNZ_eq_nz]; rfl
  rw [exec_of_ok (hx i .accumulator s hm ho) hresult, hlength]

/-- The carry is written before the store; it plays no part in the store, and the accesses before it change no flag. -/
theorem modifies_of_shift : Modifies m result (fun f v => shifted f (result f v) (out v)) := by
  intro i o s hm ho
  have hrun := hx i (.memory o) s hm ho
  obtain ⟨hok, hpointer, hread, hwrite⟩ := modify_memory_outcomes o (shiftBeforeStore result out) s
  have hfault : ∀ e t, modify (.memory o) (shiftBeforeStore result out) s = .fault e t → FaultsWith i s e :=
    fun e t h => faultsWith_of_fault hrun (by rw [hop, h, Res.bind_fault])
  have hbefore : ∀ {ea t v u}, effectiveAddress o s = .ok ea t → busRead ea t = .ok v u →
      shiftBeforeStore result out v u = (result s.flags v, u.setFlags { s.flags with c := out v }) := fun ha hr => by
    rw [shiftBeforeStore, State.setC, ((SameCpu.effectiveAddress ha).trans (SameCpu.busRead hr)).flags]
  refine ⟨fun ea t v u w ha hr hw => ?_, fun e t ha => hfault e t (hpointer e t ha),
    fun ea t e u ha hr => hfault e u (hread ea t e u ha hr), fun ea t v u e w ha hr hw => ?_⟩
  · have hstored := hok ea t v u (w.setFlags { s.flags with c := out v }) ha hr
      (by rw [hbefore ha hr, busWrite_setFlags, hw])
    rw [exec_of_ok hrun (by rw [hop, hstored, Res.bind_ok]), hbefore ha hr, setFlags_carry_setNZ]
  · exact hfault e (w.setFlags { s.flags with c := out v }) (hwrite ea t v u e _ ha hr
      (by rw [hbefore ha hr, busWrite_setFlags, hw]))

end

end Sys2Proof.Machine

namespace Sys2Proof.Proofs

open Sys2Proof Sys2Proof.Machine Sys2Proof.Claims

/-- Settles O29: each of the three reads its operand and combines it with `A` (`combinesIntoA_of_exec`). -/
theorem logicRules : Obligations.LogicRules :=
  ⟨hasForms_opcodeMap .AND,
    combinesIntoA_of_exec (fun _ _ s hm ho => exec_of_AND hm ho s) (fun _ _ => rfl) byte_and,
    hasForms_opcodeMap .ORA,
    combinesIntoA_of_exec (fun _ _ s hm ho => exec_of_ORA hm ho s) (fun _ _ => rfl) byte_or,
    hasForms_opcodeMap .EOR,
    combinesIntoA_of_exec (fun _ _ s hm ho => exec_of_EOR hm ho s) (fun _ _ => rfl) byte_xor⟩

/-- Settles O30: `BIT` reads its operand and tests it against `A`; the read changes neither `A` nor the flags. -/
theorem bitRule : Obligations.BitRule := by
  refine ⟨hasForms_opcodeMap .BIT, fun i src s hm ho => ?_⟩
  obtain ⟨hok, hfault⟩ := exec_of_loadSource (exec_of_BIT hm ho s) rfl
  refine ⟨fun m t hl => ?_, hfault⟩
  have hcpu : SameCpu s t := .loadSource hl
  rw [hok m t hl, Flags.bitTest_eq, hcpu.flags, ← hcpu.a]; rfl

/-- Settles O31: each shift is a `modify` that puts the bit shifted out into `C` before the store, with `N` and `Z` set
after it (`shiftWith_eq_modify`), on the accumulator (`modifiesA_of_shift`) and on memory (`modifies_of_shift`). -/
theorem shiftRules : Obligations.ShiftRules :=
  ⟨hasForms_opcodeMap .ASL,
    modifiesA_of_shift (fun _ _ s hm ho => exec_of_ASL hm ho s) (shiftWith_eq_modify shiftLeft_eq),
    modifies_of_shift (fun _ _ s hm ho => exec_of_ASL hm ho s) (shiftWith_eq_modify shiftLeft_eq),
    hasForms_opcodeMap .LSR,
    modifiesA_of_shift (fun _ _ s hm ho => exec_of_LSR hm ho s) (shiftWith_eq_modify shiftRight_eq),
    modifies_of_shift (fun _ _ s hm ho => exec_of_LSR hm ho s) (shiftWith_eq_modify shiftRight_eq),
    hasForms_opcodeMap .ROL,
    modifiesA_of_shift (fun _ _ s hm ho => exec_of_ROL hm ho s) (shiftWith_eq_modify rotateLeft_eq),
    modifies_of_shift (fun _ _ s hm ho => exec_of_ROL hm ho s) (shiftWith_eq_modify rotateLeft_eq),
    hasForms_opcodeMap .ROR,
    modifiesA_of_shift (fun _ _ s hm ho => exec_of_ROR hm ho s) (shiftWith_eq_modify rotateRight_eq),
    modifies_of_shift (fun _ _ s hm ho => exec_of_ROR hm ho s) (shiftWith_eq_modify rotateRight_eq)⟩

end Sys2Proof.Proofs

/-! # Control flow (`44_control_flow.md`) -/

namespace Sys2Proof.Machine

open Sys2Proof Sys2Proof.Claims

/-! ### How a step that sets `PC` itself ends (`30_encoding.md` R80, `60_exceptions.md` R292) -/

section
variable {i : Instr} {f : State → Res Unit} {s : State} (hx : exec i s = runControl i f s)
include hx

theorem exec_of_control_ok {t : State} (h : f s = .ok () t) : exec i s = .next t := by
  rw [hx, runControl_next.mpr h]

theorem faultsWith_of_control_fault {t : State} {e : BusError} (h : f s = .fault e t) : FaultsWith i s e := by
  rw [FaultsWith, hx, runControl, h]; rfl

/-- An instruction whose last act is to set `PC`, to an address that may depend on what it obtained before. -/
theorem exec_of_setPc {α : Type} {r : Res α} {target : α → Addr}
    (hf : f s = r.bind fun v t => .ok () (t.setPc (target v))) :
    (∀ v t, r = .ok v t → exec i s = .next { t with pc := target v }) ∧ (∀ e t, r = .fault e t → FaultsWith i s e) :=
  ⟨fun _ _ hr => exec_of_control_ok hx (by rw [hf, hr, Res.bind_ok]; rfl),
    fun _ _ hr => faultsWith_of_control_fault hx (by rw [hf, hr, Res.bind_fault])⟩

end

/-! ### The jumps, the call, the return and the trap by their operations (R181 to R184, R193, R194) -/

theorem exec_jmpAbs (target : Addr) (s : State) :
    exec (.jmpAbs target) s = runControl (.jmpAbs target) (jmp target) s := rfl

theorem exec_jmpInd (ptr : Addr) (s : State) : exec (.jmpInd ptr) s = runControl (.jmpInd ptr) (jmpIndirect ptr) s := rfl

theorem exec_jsr (target : Addr) (s : State) : exec (.jsr target) s = runControl (.jsr target) (jsr target) s := rfl

theorem exec_rts (s : State) : exec .rts s = runControl .rts rts s := rfl

theorem exec_brk (s : State) : exec .brk s = runControl .brk brk s := rfl

theorem exec_rti (s : State) : exec .rti s = runControl .rti returnFromTrap s := rfl

theorem pc_add_two (s : State) : s.pc + 2#16 = after s 2 := addr_add_ofNat s.pc 2

/-- The address pushed by a call is that of the last byte of the `JSR` (R183). -/
theorem jsr_eq_pushWord (target : Addr) (s : State) :
    jsr target s = (pushWord (after s 2) s).bind fun _ t => .ok () (t.setPc target) := by rw [jsr, pc_add_two]

theorem rts_eq_pullWord (s : State) : rts s = (pullWord s).bind fun w t => .ok () (t.setPc (w + 1#16)) := rfl

theorem brk_eq_takeTrap (s : State) : brk s = takeTrap s.params.brkVector (after s 2) s := by rw [brk, pc_add_two]

/-! ### Words on the stack (`20_memory.md` R58, `44_control_flow.md` R183, R184) -/

/-- How the push of a word ends: both pushes complete, or the first of them that faults is the fault. -/
theorem pushWord_outcomes (w : Addr) (s : State) :
    (∀ t u, push (BitVec.ofNat 8 (w.toNat / 256)) s = .ok () t → push (BitVec.ofNat 8 (w.toNat % 256)) t = .ok () u →
      pushWord w s = .ok () u) ∧
    (∀ e t, push (BitVec.ofNat 8 (w.toNat / 256)) s = .fault e t → pushWord w s = .fault e t) ∧
    (∀ t e u, push (BitVec.ofNat 8 (w.toNat / 256)) s = .ok () t →
      push (BitVec.ofNat 8 (w.toNat % 256)) t = .fault e u → pushWord w s = .fault e u) := by
  rw [pushWord, hi_eq_ofNat, lo_eq_ofNat]
  exact ⟨fun t u hh hl => by rw [hh, Res.bind_ok, hl], fun e t hh => by rw [hh, Res.bind_fault],
    fun t e u hh hl => by rw [hh, Res.bind_ok, hl]⟩

/-- How the pull of a word ends: both pulls complete, or the first of them that faults is the fault. -/
theorem pullWord_outcomes (s : State) :
    (∀ l t h u, pull s = .ok l t → pull t = .ok h u →
      pullWord s = .ok (BitVec.ofNat 16 (256 * h.toNat + l.toNat)) u) ∧
    (∀ e t, pull s = .fault e t → pullWord s = .fault e t) ∧
    (∀ l t e u, pull s = .ok l t → pull t = .fault e u → pullWord s = .fault e u) := by
  unfold pullWord
  exact ⟨fun l t h u hl hh => by rw [hl, Res.bind_ok, hh, Res.bind_ok, word_eq_ofNat],
    fun e t hl => by rw [hl, Res.bind_fault],
    fun l t e u hl hh => by rw [hl, Res.bind_ok, hh, Res.bind_fault]⟩

/-! ### The pointer of an indirect jump (`30_encoding.md` R93) -/

/-- The page of one address and the offset of another make an address. -/
theorem page_or_offset_eq_word (a b : Addr) : a &&& 0xFF00#16 ||| b &&& 0x00FF#16 = word (hi a) (lo b) := by
  unfold word hi lo
  ext k hk
  interval_cases k <;> simp

/-- The high byte lies at the next address, or with `JMP_IND_PAGE_WRAP` at the next address of the pointer's page. -/
theorem indirectHighAddress_toNat (ps : Params) (ptr : Addr) :
    (indirectHighAddress ps ptr).toNat =
      if ps.jmpIndPageWrap then 256 * (ptr.toNat / 256) + (ptr.toNat + 1) % 256 else (ptr.toNat + 1) % 65536 := by
  have hptr := ptr.isLt
  have hnext : (ptr + 1#16).toNat = (ptr.toNat + 1) % 65536 := by rw [BitVec.toNat_add]; rfl
  unfold indirectHighAddress
  split
  · rw [page_or_offset_eq_word, word_eq_ofNat, hi_eq_ofNat, lo_eq_ofNat]
    simp only [BitVec.toNat_ofNat, hnext]
    omega
  · exact hnext

theorem jmpIndirect_eq_readWord (ptr : Addr) (s : State) :
    jmpIndirect ptr s =
      (readWord ptr (indirectHighAddress s.params ptr) s).bind fun w t => .ok () (t.setPc w) := rfl

/-! ### Branches (`44_control_flow.md` R180, `30_encoding.md` R96) -/

theorem signed_eq_toInt (v : Byte) : signed v = v.toInt := by
  rw [signed, BitVec.toInt_eq_toNat_cond]; split <;> split <;> omega

theorem relativeTarget_eq_branchTarget (rel : Byte) (s : State) : relativeTarget rel s = branchTarget s rel := by
  have hsext : sext rel = BitVec.ofInt 16 (signed rel) := congrArg _ (signed_eq_toInt rel).symm
  have hnext : s.pc + 2#16 = BitVec.ofInt 16 (s.pc.toNat + 2) := addr_add_ofNat s.pc 2
  rw [relativeTarget, branchTarget, BitVec.ofInt_add, hsext, hnext]

/-- A mnemonic of the one form `op` whose operation is `branch` on a condition over the flags. -/
theorem branches_of_exec {m : Mnemonic} {op : Byte} {cond : Flags → Bool}
    (hforms : HasForms m [(.REL, op)])
    (hx : ∀ (i : Instr) (rel : Byte) (s : State), i.mnemonic = m → i.operand = .relative rel →
      exec i s = runControl i (fun s => branch (cond s.flags) rel s) s) : Branches m op cond := by
  refine ⟨hforms, fun i rel s hm ho => ?_⟩
  rw [exec_of_control_ok (hx i rel s hm ho) rfl, relativeTarget_eq_branchTarget, pc_add_two]; rfl

/-! ### The trap and the return from it (`44_control_flow.md` R193, R194) -/

theorem takeTrap_of_pushWord_fault {vector ret : Addr} {s t : State} {e : BusError} (hw : pushWord ret s = .fault e t) :
    takeTrap vector ret s = .fault e t := by rw [takeTrap, hw, Res.bind_fault]

section
variable {vector ret : Addr} {s u v : State} {e : BusError} (hw : pushWord ret s = .ok () u)
include hw

/-- The status pushed is that of before the trap: the push of the return address changes no flag. -/
theorem takeTrap_of_push_fault (hp : push s.flags.pushed u = .fault e v) : takeTrap vector ret s = .fault e v := by
  have hu : u.flags = s.flags := (SameCpu.pushWord hw).flags
  rw [takeTrap, hw, Res.bind_ok, hu, hp, Res.bind_fault]

/-- After the three pushes, which change no flag, the vector is read with `I` set in the flags of before the trap. -/
theorem takeTrap_of_push_ok (hp : push s.flags.pushed u = .ok () v) :
    takeTrap vector ret s =
      (memRead16 vector { v with flags := { s.flags with i := true } }).bind fun target w =>
        .ok () (w.setPc target) := by
  have hu : u.flags = s.flags := (SameCpu.pushWord hw).flags
  have hv : v.flags = s.flags := (SameCpu.push hp).flags.trans hu
  rw [takeTrap, hw, Res.bind_ok, hu, hp, Res.bind_ok, hv]; rfl

end

/-- Once the status byte `v` is pulled, a pulled word is the address. -/
theorem returnFromTrap_of_pull_ok {s t : State} {v : Byte} (h : pull s = .ok v t) :
    returnFromTrap s = (pullWord { t with flags := ⟨v[7], v[6], v[3], v[2], v[1], v[0]⟩ }).bind fun target u =>
      .ok () (u.setPc target) := by
  rw [returnFromTrap, h, Res.bind_ok]; rfl

theorem returnFromTrap_of_pull_fault {s t : State} {e : BusError} (h : pull s = .fault e t) :
    returnFromTrap s = .fault e t := by rw [returnFromTrap, h, Res.bind_fault]

end Sys2Proof.Machine

namespace Sys2Proof.Proofs

open Sys2Proof Sys2Proof.Machine Sys2Proof.Claims

/-- Settles O32: the indirect jump reads a word (`readWord_outcomes`) whose high byte lies where
`indirectHighAddress_toNat` says, and sets `PC` to it. -/
theorem jmpRules : Obligations.JmpRules := by
  refine ⟨hasForms_opcodeMap .JMP, fun target s => exec_of_control_ok (exec_jmpAbs target s) rfl,
    fun ptr high s hhigh => ?_⟩
  have haddr : indirectHighAddress s.params ptr = high :=
    BitVec.eq_of_toNat_eq ((indirectHighAddress_toNat s.params ptr).trans hhigh.symm)
  obtain ⟨hok, hlow, hsecond⟩ := readWord_outcomes ptr high s
  obtain ⟨hnext, hfault⟩ := exec_of_setPc (exec_jmpInd ptr s) (jmpIndirect_eq_readWord ptr s)
  rw [haddr] at hnext hfault
  exact ⟨fun l t h u hl hh => hnext _ u (hok l t h u hl hh), fun e t hl => hfault e t (hlow e t hl),
    fun l t e u hl hh => hfault e u (hsecond l t e u hl hh)⟩

/-- Settles O33: a call pushes a word and sets `PC` (`pushWord_outcomes`), a return pulls one and sets `PC` one past it
(`pullWord_outcomes`). -/
theorem callRules : Obligations.CallRules := by
  refine ⟨⟨hasForms_opcodeMap .JSR, fun target s => ?_⟩, hasForms_opcodeMap .RTS, fun s => ?_⟩
  · obtain ⟨hok, hhigh, hlow⟩ := pushWord_outcomes (after s 2) s
    obtain ⟨hnext, hfault⟩ := exec_of_setPc (exec_jsr target s) (jsr_eq_pushWord target s)
    exact ⟨fun t u hh hl => hnext () u (hok t u hh hl), fun e t hh => hfault e t (hhigh e t hh),
      fun t e u hh hl => hfault e u (hlow t e u hh hl)⟩
  · obtain ⟨hok, hlow, hhigh⟩ := pullWord_outcomes s
    obtain ⟨hnext, hfault⟩ := exec_of_setPc (exec_rts s) (rts_eq_pullWord s)
    exact ⟨fun l t h u hl hh => by rw [hnext _ u (hok l t h u hl hh), ← BitVec.ofNat_add],
      fun e t hl => hfault e t (hlow e t hl), fun l t e u hl hh => hfault e u (hhigh l t e u hl hh)⟩

/-- Settles O34: each branch is `branch` on its own flag (`branches_of_exec`). -/
theorem branchRules : Obligations.BranchRules :=
  ⟨branches_of_exec (hasForms_opcodeMap .BCC) fun _ _ s hm ho => exec_of_BCC hm ho s,
    branches_of_exec (hasForms_opcodeMap .BCS) fun _ _ s hm ho => exec_of_BCS hm ho s,
    branches_of_exec (hasForms_opcodeMap .BEQ) fun _ _ s hm ho => exec_of_BEQ hm ho s,
    branches_of_exec (hasForms_opcodeMap .BNE) fun _ _ s hm ho => exec_of_BNE hm ho s,
    branches_of_exec (hasForms_opcodeMap .BMI) fun _ _ s hm ho => exec_of_BMI hm ho s,
    branches_of_exec (hasForms_opcodeMap .BPL) fun _ _ s hm ho => exec_of_BPL hm ho s,
    branches_of_exec (hasForms_opcodeMap .BVC) fun _ _ s hm ho => exec_of_BVC hm ho s,
    branches_of_exec (hasForms_opcodeMap .BVS) fun _ _ s hm ho => exec_of_BVS hm ho s⟩

/-- Settles O35: the pushes change no flag, so the status pushed is `SR | 0x30` of before the step
(`takeTrap_of_push_fault`) and the vector read that ends the trap has those flags with `I` set (`takeTrap_of_push_ok`). -/
theorem brkRule : Obligations.BrkRule := by
  refine ⟨hasForms_opcodeMap .BRK, fun s => ?_⟩
  obtain ⟨hok, hhigh, hlow⟩ := pushWord_outcomes (after s 2) s
  have hfault : ∀ e t, takeTrap s.params.brkVector (after s 2) s = .fault e t → FaultsWith .brk s e := fun e t h =>
    faultsWith_of_control_fault (exec_brk s) ((brk_eq_takeTrap s).trans h)
  refine ⟨fun t u v w target hh hl hp hr => ?_, fun e t hh => hfault e t (takeTrap_of_pushWord_fault (hhigh e t hh)),
    fun t e u hh hl => hfault e u (takeTrap_of_pushWord_fault (hlow t e u hh hl)),
    fun t u e v hh hl hp => hfault e v (takeTrap_of_push_fault (hok t u hh hl) hp),
    fun t u v e w hh hl hp hr => hfault e w ?_⟩
  · refine exec_of_control_ok (exec_brk s) ?_
    rw [brk_eq_takeTrap, takeTrap_of_push_ok (hok t u hh hl) hp, hr, Res.bind_ok]; rfl
  · rw [takeTrap_of_push_ok (hok t u hh hl) hp, hr, Res.bind_fault]

/-- Settles O36: once the status is pulled, the trap return pulls a word and sets `PC` to it. -/
theorem rtiRule : Obligations.RtiRule := by
  refine ⟨hasForms_opcodeMap .RTI, fun s => ⟨fun v t l u h w hv hl hh => ?_,
    fun e t hv => faultsWith_of_control_fault (exec_rti s) (returnFromTrap_of_pull_fault hv),
    fun v t e u hv hl => ?_, fun v t l u e w hv hl hh => ?_⟩⟩
  all_goals
    obtain ⟨hnext, hfault⟩ := exec_of_setPc (exec_rti s) (returnFromTrap_of_pull_ok hv)
    obtain ⟨hok, hlow, hhigh⟩ := pullWord_outcomes { t with flags := ⟨v[7], v[6], v[3], v[2], v[1], v[0]⟩ }
  · exact hnext _ w (hok l u h w hl hh)
  · exact hfault e u (hlow e u hl)
  · exact hfault e w (hhigh l u e w hl hh)

end Sys2Proof.Proofs

/-! # Flag instructions and `NOP` (`45_flags_nop.md`) -/

namespace Sys2Proof.Proofs

open Sys2Proof Sys2Proof.Machine Sys2Proof.Claims

/-- Settles O39: each flag instruction is one write of its flag, which always completes; `NOP` leaves the state. -/
theorem flagRules : Obligations.FlagRules :=
  ⟨implied_of_exec (hasForms_opcodeMap .CLC) (fun _ s hm => exec_of_CLC hm s) fun _ => rfl,
    implied_of_exec (hasForms_opcodeMap .SEC) (fun _ s hm => exec_of_SEC hm s) fun _ => rfl,
    implied_of_exec (hasForms_opcodeMap .CLI) (fun _ s hm => exec_of_CLI hm s) fun _ => rfl,
    implied_of_exec (hasForms_opcodeMap .SEI) (fun _ s hm => exec_of_SEI hm s) fun _ => rfl,
    implied_of_exec (hasForms_opcodeMap .CLD) (fun _ s hm => exec_of_CLD hm s) fun _ => rfl,
    implied_of_exec (hasForms_opcodeMap .SED) (fun _ s hm => exec_of_SED hm s) fun _ => rfl,
    implied_of_exec (hasForms_opcodeMap .CLV) (fun _ s hm => exec_of_CLV hm s) fun _ => rfl,
    implied_of_exec (hasForms_opcodeMap .NOP) (fun _ s hm => exec_of_NOP hm s) fun _ => rfl⟩

end Sys2Proof.Proofs

/-! # The ACIA (`46_acia.md`) -/

namespace Sys2Proof.Machine

open Sys2Proof Sys2Proof.Claims

/-! ### A device replaced through the bus (`20_memory.md` R54) -/

/-- The device that an address finds, replaced by one of the same size. -/
theorem replacesDevice_setBus {s : State} {a : Addr} {b : Binding} {d : Device} (hf : findBinding s.bus a = some b)
    (hs : d.size = b.device.size) : ReplacesDevice s (s.setBus (replaceDevice a d s.bus)) a b d :=
  ⟨rfl, findBinding_replaceDevice hf hs, fun _ hc => findBinding_replaceDevice_outside hf hs hc⟩

theorem busWrite_acia {s : State} {a : Addr} {b : Binding} {d : Acia} (v : Byte) (hf : findBinding s.bus a = some b)
    (hd : b.device = .acia d) :
    busWrite a v s = .ok () (s.setBus (replaceDevice a (.acia (d.write s.params v (b.aciaRegister a))) s.bus)) := by
  simp only [busWrite, hf, hd]

/-- The binding names each ACIA register at its offset (`46_acia.md` R211). -/
theorem aciaRegister_of_offset {a : Addr} {b : Binding} {r : AciaRegister} (h : a.toNat = b.base.toNat + aciaOffset r) :
    b.aciaRegister a = r := by
  rw [Binding.aciaRegister, h, Nat.add_sub_cancel_left]
  cases r <;> rfl

/-! ### The reset (`46_acia.md` R214) -/

/-- No bit of a zero command byte is under an enable mask, so the reset is the power-on state. -/
theorem Acia.reset_eq_powerOn (ps : Params) (d : Acia) : d.reset ps = Acia.powerOn d.peripheral := by
  simp [Acia.reset, Acia.writeCommand, Acia.writeControl, Acia.powerOn]

/-! ### Capabilities (`46_acia.md` R212) -/

theorem canRead_eq_true_iff (c : Capability) : canRead c = true ↔ c = .read ∨ c = .bidirectional := by
  cases c <;> decide

theorem canRead_eq_false_iff (c : Capability) : canRead c = false ↔ c = .none ∨ c = .write := by
  cases c <;> decide

theorem canWrite_eq_true_iff (c : Capability) : canWrite c = true ↔ c = .write ∨ c = .bidirectional := by
  cases c <;> decide

theorem canWrite_eq_false_iff (c : Capability) : canWrite c = false ↔ c = .none ∨ c = .read := by
  cases c <;> decide

/-! ### The pull of a data read (`46_acia.md` R215, R223) -/

section
variable {d : Acia}

theorem Acia.pull_of_not_asked (h : d.rxFull = true ∨ canRead d.peripheral.capability = false) : d.pull = d := by
  rw [Acia.pull, if_neg]
  obtain h | h := h <;> simp [h]

variable (hempty : d.rxFull = false) (hcan : canRead d.peripheral.capability = true)
include hempty hcan

theorem Acia.pull_of_got {v : Byte} {p : Peripheral} (h : d.peripheral.read = (.got v, p)) :
    d.pull = { d with rx := v, peripheral := p } := by
  simp [Acia.pull, hempty, hcan, h]

theorem Acia.pull_of_no_byte {r : PeripheralRead} {p : Peripheral} (h : d.peripheral.read = (r, p))
    (hr : r = .nothing ∨ r = .error) : d.pull = { d with peripheral := p } := by
  obtain rfl | rfl := hr <;> simp [Acia.pull, hempty, hcan, h]

end

theorem Acia.read_data (ps : Params) (d : Acia) :
    d.read ps .data = (d.pull.rx, { d.pull with rxFull := false, overrun := false }) := rfl

/-! ### The status byte (`46_acia.md` R216) -/

theorem bitAt_getElem (on : Bool) (i k : Fin 8) : (bitAt on i)[k] = (on && k == i) := by
  revert on i k; decide

theorem Acia.status_getElem (ps : Params) (d : Acia) (k : Fin 8) :
    (d.status ps)[k] =
      ((d.overrun && k == ps.aciaOverrunBit) || (d.rxFull && k == ps.aciaRxFullBit) ||
        (d.txEmpty && k == ps.aciaTxEmptyBit)) := by
  simp only [Acia.status, ← bitAt_getElem, Fin.getElem_fin, BitVec.getElem_or]

/-! ### The write of the data register (`46_acia.md` R218, R223) -/

theorem Acia.writeData_of_not_offered {d : Acia} (v : Byte) (h : canWrite d.peripheral.capability = false) :
    d.writeData v = { d with tx := v, txEmpty := false } := by
  simp [Acia.writeData, h]

/-- Only a rejection leaves `txEmpty` false. -/
theorem Acia.writeData_of_offered {d : Acia} {v : Byte} {r : PeripheralWrite} {p : Peripheral}
    (h : canWrite d.peripheral.capability = true) (hw : d.peripheral.write v = (r, p)) :
    d.writeData v = { d with tx := v, txEmpty := decide (r ≠ .rejected), peripheral := p } := by
  cases r <;> simp [Acia.writeData, h, hw]

/-! ### The write of the command register (`46_acia.md` R220) -/

theorem byte_bne (v w : Byte) : (v != w) = decide (v ≠ w) := by
  rw [Bool.eq_iff_iff, bne_iff_ne, decide_eq_true_iff]

theorem Acia.writeCommand_eq (ps : Params) (d : Acia) (v : Byte) :
    d.writeCommand ps v =
      { d with
        command := v
        rxIrqEnabled := decide (v &&& ps.aciaCmdRxIrqMask ≠ 0#8)
        txIrqEnabled := decide (v &&& ps.aciaCmdTxIrqMask ≠ 0#8) } := by
  rw [Acia.writeCommand, byte_bne, byte_bne]

end Sys2Proof.Machine

namespace Sys2Proof.Proofs

open Sys2Proof Sys2Proof.Machine Sys2Proof.Claims

/-- Settles O46: the status offset is written with the reset, which is the power-on state (`Acia.reset_eq_powerOn`). -/
theorem aciaProgrammedReset : Obligations.AciaProgrammedReset := by
  intro s a v b d hf hd ha
  have hreset : d.write s.params v (b.aciaRegister a) = Acia.powerOn d.peripheral := by
    rw [aciaRegister_of_offset (r := .status) ha]
    exact Acia.reset_eq_powerOn s.params d
  refine ⟨_, busWrite_acia v hf hd, ?_⟩
  rw [hreset]
  exact replacesDevice_setBus hf (by rw [hd]; rfl)

/-- Settles O47: the data read by what the pull does, the status byte bit by bit. -/
theorem aciaReads : Obligations.AciaReads := by
  refine ⟨fun ps d => ⟨fun hnone => ?_, fun hempty hcap => ?_⟩,
    fun ps d => ⟨rfl, rfl, rfl, Acia.status_getElem ps d⟩⟩
  · rw [← canRead_eq_false_iff] at hnone
    rw [Acia.read_data, Acia.pull_of_not_asked hnone]
  · have hcan := (canRead_eq_true_iff _).mpr hcap
    exact ⟨fun v p h => by rw [Acia.read_data, Acia.pull_of_got hempty hcan h],
      fun r p h hr => by rw [Acia.read_data, Acia.pull_of_no_byte hempty hcan h hr]⟩

/-- Settles O48: a data write by whether the byte is offered to the peripheral; the command byte's enables are its bits
under the masks. -/
theorem aciaWrites : Obligations.AciaWrites := by
  refine fun ps d v => ⟨fun hcap => ?_, fun hcap r p hw => ?_, ?_, rfl⟩
  · exact Acia.writeData_of_not_offered v ((canWrite_eq_false_iff _).mpr hcap)
  · exact Acia.writeData_of_offered ((canWrite_eq_true_iff _).mpr hcap) hw
  · exact Acia.writeCommand_eq ps d v

end Sys2Proof.Proofs

/-! # The CPU reset (`70_reset_and_hazards.md`) -/

namespace Sys2Proof.Machine

open Sys2Proof

/-- The word is read first; the program counter, the flags and the run state are written over what the reads left (R320). -/
theorem cpuReset_eq_readWord (f : ResetFlags) (s : State) :
    cpuReset f s =
      (readWord s.params.resetVector (BitVec.ofNat 16 (s.params.resetVector.toNat + 1)) s).bind fun v t =>
        .ok () { t with
          pc := v
          flags := { n := f.n, v := f.v, d := f.d, i := true, z := f.z, c := f.c }
          run := .running } := by
  rw [cpuReset, memRead16_eq_readWord]; rfl

end Sys2Proof.Machine

namespace Sys2Proof.Proofs

open Sys2Proof Sys2Proof.Machine Sys2Proof.Claims

/-- Settles O58: the reset ends as the read of its vector ends (`readWord_outcomes`). -/
theorem cpuReset : Obligations.CpuReset := by
  intro f s
  obtain ⟨hok, hlow, hhigh⟩ :=
    readWord_outcomes s.params.resetVector (BitVec.ofNat 16 (s.params.resetVector.toNat + 1)) s
  rw [cpuReset_eq_readWord]
  exact ⟨fun l t h u hl hh => by rw [hok l t h u hl hh, Res.bind_ok],
    fun e t hl => by rw [hlow e t hl, Res.bind_fault],
    fun l t e u hl hh => by rw [hhigh l t e u hl hh, Res.bind_fault]⟩

end Sys2Proof.Proofs

/-! # Decoding and encoding (`30_encoding.md` R81, R82, R98, R99) -/

namespace Sys2Proof

open Sys2Proof.Machine Sys2Proof.Claims

/-! ### The record and the decoder (`30_encoding.md` R81, R98) -/

/-- A field of the record that the mode leaves unused is 0 (log entry 28). -/
theorem Machine.Operand.unused_field_zero (o : Operand) :
    ((o.mode.length == 2 || o.op8 == 0#8) && (o.mode.length == 3 || o.op16 == 0#16)) = true := by
  cases o with
  | memory m => cases m <;> rfl
  | _ => rfl

theorem Instr.wf_eq_true (i : Instr) : i.wf = true := by
  obtain ⟨hop, hlen⟩ := record_fits i
  have hfields : i.record.operandsFit = true := i.operand.unused_field_zero
  rw [Instr.wf, Instruction.wf, hop, hlen, hfields]; rfl

/-- Bytes that hold the operand of an instruction hold it in its mode. -/
theorem operand_eq_operandOf_bytes {i : Instr} {b1 b2 : Byte} (h2 : i.length = 2 → i.operand.op8 = b1)
    (h3 : i.length = 3 → i.operand.op16 = word b2 b1) : i.operand = operandOf i.mnemonic i.mode b1 (word b2 b1) := by
  have hi : i.operand = operandOf i.mnemonic i.mode i.operand.op8 i.operand.op16 := operand_eq_operandOf i
  unfold Instr.length at h2 h3
  cases hm : i.mode <;> rw [hm] at h2 h3 hi
  case IMP | ACC => exact hi
  case IMM | ZP | ZPX | ZPY | IZX | IZY | REL => rw [hi, h2 rfl]; rfl
  case ABS | ABX | ABY | IND => rw [hi, h3 rfl]; rfl

/-- The converse of `decodeWith_bytes`: the opcode of an instruction, with bytes that hold its operand, decodes
to it. -/
theorem decodeWith_of_bytes {i : Instr} {b1 b2 : Byte} (h2 : i.length = 2 → i.operand.op8 = b1)
    (h3 : i.length = 3 → i.operand.op16 = word b2 b1) : decodeWith i.opcode b1 b2 = some i := by
  have h := operand_eq_operandOf_bytes h2 h3
  clear h2 h3
  cases i <;> cases h <;> dsimp only [Instr.opcode] <;> rfl

/-! ### The bytes of an instruction, by its length (`30_encoding.md` R82) -/

theorem encode_of_length_one {i : Instr} (h : i.length = 1) : encode i = [i.opcode] := by rw [encode, h]; rfl

theorem encode_of_length_two {i : Instr} (h : i.length = 2) : encode i = [i.opcode, i.operand.op8] := by
  rw [encode, h]; rfl

theorem encode_of_length_three {i : Instr} (h : i.length = 3) :
    encode i = [i.opcode, lo i.operand.op16, hi i.operand.op16] := by rw [encode, h]; rfl

theorem decode_encode (i : Instr) (rest : List Byte) : decode (encode i ++ rest) = some (i, rest) := by
  have hop := opcodeLength_opcode i
  obtain h | h | h := length_cases i <;> rw [h] at hop
  · have hi : decodeWith i.opcode 0#8 0#8 = some i := decodeWith_of_bytes (by simp [h]) (by simp [h])
    simp [encode_of_length_one h, decode, hop, hi]
  · have hi : decodeWith i.opcode i.operand.op8 0#8 = some i := decodeWith_of_bytes (fun _ => rfl) (by simp [h])
    simp [encode_of_length_two h, decode, hop, hi]
  · have hi : decodeWith i.opcode (lo i.operand.op16) (hi i.operand.op16) = some i :=
      decodeWith_of_bytes (by simp [h]) fun _ => (word_hi_lo _).symm
    simp [encode_of_length_three h, decode, hop, hi]

/-- What bytes that decode are: the opcode byte and as many operand bytes as it announces, then the rest. -/
theorem decode_cases {bytes rest : List Byte} {i : Instr} (h : decode bytes = some (i, rest)) :
    ∃ op b1 b2, decodeWith op b1 b2 = some i ∧
      ((i.length = 1 ∧ bytes = op :: rest) ∨ (i.length = 2 ∧ bytes = op :: b1 :: rest) ∨
        (i.length = 3 ∧ bytes = op :: b1 :: b2 :: rest)) := by
  cases bytes with
  | nil => cases h
  | cons op tail =>
    have hlen : ∀ {b1 b2 n}, decodeWith op b1 b2 = some i → opcodeLength op = some n → i.length = n := fun hd hn =>
      Option.some.inj ((opcodeLength_of_decodeWith hd).symm.trans hn)
    simp only [decode] at h
    split at h
    case h_1 hn =>
      obtain ⟨j, hd, hj⟩ := Option.map_eq_some_iff.mp h
      cases hj
      exact ⟨op, _, _, hd, .inl ⟨hlen hd hn, rfl⟩⟩
    case h_2 b1 _ hn =>
      obtain ⟨j, hd, hj⟩ := Option.map_eq_some_iff.mp h
      cases hj
      exact ⟨op, b1, _, hd, .inr (.inl ⟨hlen hd hn, rfl⟩)⟩
    case h_3 b1 b2 _ hn =>
      obtain ⟨j, hd, hj⟩ := Option.map_eq_some_iff.mp h
      cases hj
      exact ⟨op, b1, b2, hd, .inr (.inr ⟨hlen hd hn, rfl⟩)⟩
    case h_4 => cases h

theorem encode_append_of_decode {bytes rest : List Byte} {i : Instr} (h : decode bytes = some (i, rest)) :
    encode i ++ rest = bytes := by
  obtain ⟨op, b1, b2, hd, hb⟩ := decode_cases h
  obtain ⟨hop, h2, h3⟩ := decodeWith_bytes hd
  obtain ⟨hl, rfl⟩ | ⟨hl, rfl⟩ | ⟨hl, rfl⟩ := hb
  · rw [encode_of_length_one hl, hop]; rfl
  · rw [encode_of_length_two hl, hop, h2 hl]; rfl
  · rw [encode_of_length_three hl, hop, h3 hl, lo_word, hi_word]; rfl

theorem encode_format (i : Instr) :
    (i.mode ∈ [Mode.IMP, .ACC] → encode i = [i.opcode]) ∧
    (i.mode ∈ [Mode.IMM, .ZP, .ZPX, .ZPY, .IZX, .IZY, .REL] → encode i = [i.opcode, i.operand.op8]) ∧
    (i.mode ∈ [Mode.ABS, .ABX, .ABY, .IND] → encode i = [i.opcode, lo i.operand.op16, hi i.operand.op16]) := by
  have hlen : i.length = i.mode.length := rfl
  cases hm : i.mode <;> rw [hm] at hlen
  case IMP | ACC => simp [encode_of_length_one hlen]
  case IMM | ZP | ZPX | ZPY | IZX | IZY | REL => simp [encode_of_length_two hlen]
  case ABS | ABX | ABY | IND => simp [encode_of_length_three hlen]

theorem length_le_three (i : Instr) : i.length ≤ 3 := by obtain h | h | h := length_cases i <;> omega

/-! ### The undefined opcodes (`30_encoding.md` R99) -/

/-- The list is made of the bytes that announce no length, in order. -/
theorem undefinedOpcodes_eq_filter :
    undefinedOpcodes = (List.range 256).filter fun n => (opcodeLength (BitVec.ofNat 8 n)).isNone := by decide +kernel

theorem mem_undefinedOpcodes_iff (op : Byte) : op.toNat ∈ undefinedOpcodes ↔ opcodeLength op = none := by
  rw [undefinedOpcodes_eq_filter, List.mem_filter, BitVec.ofNat_toNat, BitVec.setWidth_eq, Option.isNone_iff_eq_none]
  exact and_iff_right (List.mem_range.mpr op.isLt)

/-- Whether a byte is defined does not depend on the bytes after it (`30_encoding.md` R82). -/
theorem opcodeLength_eq_none_iff (op : Byte) : opcodeLength op = none ↔ ∀ b1 b2, decodeWith op b1 b2 = none := by
  refine ⟨fun h b1 b2 => ?_, fun h => by rw [opcodeLength, h, Option.map_none]⟩
  cases hd : decodeWith op b1 b2 with
  | none => rfl
  | some i => rw [opcodeLength_of_decodeWith hd] at h; cases h

end Sys2Proof

namespace Sys2Proof.Proofs

open Sys2Proof Sys2Proof.Machine Sys2Proof.Claims

/-- Settles O1: the opcode of an instruction and the bytes of its operand decode to it (`decodeWith_of_bytes`). -/
theorem decodeOfEncode : Obligations.DecodeOfEncode := fun i rest => ⟨i.wf_eq_true, decode_encode i rest⟩

/-- Settles O2: a decoded instruction keeps the bytes it was decoded from (`decode_cases`, `decodeWith_bytes`). -/
theorem encodeOfDecode : Obligations.EncodeOfDecode := fun _ _ _ h => encode_append_of_decode h

/-- Settles O4: the mode gives the length and the length the bytes (`encode_format`). -/
theorem instructionFormats : Obligations.InstructionFormats := by
  intro i
  rw [← hi_eq_ofNat, ← lo_eq_ofNat]
  exact encode_format i

/-- Settles O5: the decoder is run on the ten words. -/
theorem specWordsDecode : Obligations.SpecWordsDecode := by
  unfold Obligations.SpecWordsDecode; and_intros <;> rfl

end Sys2Proof.Proofs

/-! # One step of the machine (`30_encoding.md` R80) -/

namespace Sys2Proof.Machine

open Sys2Proof Sys2Proof.Claims

/-! ### Fetch and decode: the operand bytes by the length (`20_memory.md` R63) -/

theorem fetchOperands_one (s : State) : fetchOperands 1 s = .ok (0#8, 0#8) s := rfl

theorem fetchOperands_two (s : State) :
    fetchOperands 2 s = (busRead (after s 1) s).bind fun b1 t => .ok (b1, 0#8) t := by
  rw [fetchOperands, addr_add_ofNat]; rfl

theorem fetchOperands_three (s : State) :
    fetchOperands 3 s =
      (busRead (after s 1) s).bind fun b1 t => (busRead (after s 2) t).bind fun b2 u => .ok (b1, b2) u := by
  rw [fetchOperands, addr_add_ofNat, addr_add_ofNat]; rfl

/-! ### How fetch and decode end -/

section
variable {s t : State} {op : Byte}

theorem fetch_of_busRead_fault {e : BusError} (h : busRead s.pc s = .fault e t) :
    fetch s = .fault (e.toFault ⟨some s.pc, none⟩) := by simp only [fetch, h]

theorem fetch_of_undefined (h : busRead s.pc s = .ok op t) (hn : opcodeLength op = none) :
    fetch s = .fault (.unknownOpcode s.pc op) := by simp only [fetch, h, hn]

variable {n : Nat}

theorem fetch_of_operand_fault {e : BusError} {u : State} (h : busRead s.pc s = .ok op t)
    (hn : opcodeLength op = some n) (hf : fetchOperands n t = .fault e u) :
    fetch s = .fault (e.toFault ⟨some s.pc, some op⟩) := by simp only [fetch, h, hn, hf]

theorem fetch_of_operands {b1 b2 : Byte} {u : State} {i : Instr} (h : busRead s.pc s = .ok op t)
    (hn : opcodeLength op = some n) (hf : fetchOperands n t = .ok (b1, b2) u) (hd : decodeWith op b1 b2 = some i) :
    fetch s = .ok i u := by simp only [fetch, h, hn, hf, hd]

/-- The read of the opcode leaves `PC`, so the operand bytes are at the addresses after that of the opcode. -/
theorem after_of_busRead {a : Addr} (h : busRead a s = .ok op t) (k : Nat) : after t k = after s k := by
  rw [after, (SameCpu.busRead h).pc]; rfl

end

/-! ### A step of a ready machine -/

section
variable {s : State} (hs : s.Ready)
include hs

theorem step_of_fetch_fault {f : Fault} (h : fetch s = .fault f) : step s = .fault f := by
  simp only [step_of_ready hs, cpuStep, h]

theorem step_of_fetch_ok {i : Instr} {t : State} (h : fetch s = .ok i t) :
    step s = afterHook i (runHooks i s.monitors t) := by
  obtain ⟨hkept, -, -⟩ := fetch_keeps h
  simp only [step_of_ready hs, cpuStep, h, hkept.monitors]

end

/-! ### A word in RAM or ROM (`20_memory.md` R55, R56; log entry 19) -/

theorem busRead_plain {s : State} {a : Addr} (h : plain s a) : busRead a s = .ok (s.mem.read a) s := busRead_storage h

/-- Fetch and decode of a word whose bytes are all in RAM or ROM change nothing. -/
theorem fetch_of_plain {s : State} {i : Instr} {rest : List Byte}
    (hd : decode [s.mem.read s.pc, s.mem.read (s.pc + 1#16), s.mem.read (s.pc + 2#16)] = some (i, rest))
    (hplain : ∀ k, k < i.length → plain s (s.pc + BitVec.ofNat 16 k)) : fetch s = .ok i s := by
  have hread : ∀ k, k < i.length →
      busRead (s.pc + BitVec.ofNat 16 k) s = .ok (s.mem.read (s.pc + BitVec.ofNat 16 k)) s :=
    fun k hk => busRead_plain (hplain k hk)
  obtain ⟨op, b1, b2, hi, hb⟩ := decode_cases hd
  obtain ⟨rfl, h2, h3⟩ := decodeWith_bytes hi
  have hn := opcodeLength_opcode i
  obtain ⟨hl, hb⟩ | ⟨hl, hb⟩ | ⟨hl, hb⟩ := hb <;> rw [hl] at hread hn <;> obtain ⟨hm0, hb⟩ := List.cons.inj hb
  all_goals have hop := hread 0 (by decide); rw [BitVec.add_zero, hm0] at hop
  · exact fetch_of_operands hop hn (fetchOperands_one s) (decodeWith_of_bytes (by simp [hl]) (by simp [hl]))
  · obtain ⟨hm1, -⟩ := List.cons.inj hb
    exact fetch_of_operands hop hn (by rw [fetchOperands, hread 1 (by decide), Res.bind_ok])
      (decodeWith_of_bytes (fun _ => (h2 hl).trans hm1.symm) (by simp [hl]))
  · obtain ⟨hm1, hb⟩ := List.cons.inj hb
    obtain ⟨hm2, -⟩ := List.cons.inj hb
    exact fetch_of_operands hop hn
      (by rw [fetchOperands, hread 1 (by decide), Res.bind_ok, hread 2 (by decide), Res.bind_ok])
      (decodeWith_of_bytes (by simp [hl]) fun _ => (h3 hl).trans (by rw [← hm1, ← hm2]))

/-- A ready machine without monitors runs the word in RAM or ROM at `PC`. -/
theorem step_of_plain {s : State} {i : Instr} {rest : List Byte} (hs : s.Ready) (hm : s.monitors = [])
    (hd : decode [s.mem.read s.pc, s.mem.read (s.pc + 1#16), s.mem.read (s.pc + 2#16)] = some (i, rest))
    (hplain : ∀ k, k < i.length → plain s (s.pc + BitVec.ofNat 16 k)) : step s = exec i s := by
  rw [step_of_fetch_ok hs (fetch_of_plain hd hplain), hm]; rfl

theorem storage_eq_true_iff (s : State) (a : Addr) : storage s a = true ↔ plain s a := by
  unfold storage plain kindAt
  cases findBinding s.bus a with
  | none => simp
  | some b => obtain ⟨_, _, d⟩ := b; cases d <;> simp [Device.kind]

theorem findBinding_flatBus (a : Addr) :
    findBinding flatBus a = some ⟨"low", 0x0000#16, .ram 0x8000#16⟩ ∨
      findBinding flatBus a = some ⟨"high", 0x8000#16, .ram 0x8000#16⟩ := by
  have ha := a.isLt
  obtain h | h := Nat.lt_or_ge a.toNat 0x8000
  · exact .inl (findBinding_of_disjoint rfl (by simp [flatBus]) (Nat.zero_le _) h)
  · exact .inr (findBinding_of_disjoint rfl (by simp [flatBus]) h ha)

/-- RAM or ROM is decided by the bus alone. -/
theorem plain_of_bus_eq {s t : State} {a : Addr} (h : t.bus = s.bus) (hp : plain s a) : plain t a := by
  unfold plain kindAt at hp ⊢; rwa [h]

/-- The three bytes from `PC` on are those placed. -/
theorem placeInstruction_bytes (s : State) (nbits w : Nat) :
    [(placeInstruction s nbits w).mem.read s.pc, (placeInstruction s nbits w).mem.read (s.pc + 1#16),
      (placeInstruction s nbits w).mem.read (s.pc + 2#16)] = tableBytes nbits w := by
  have hmem : (placeInstruction s nbits w).mem = s.mem.load s.pc (tableBytes nbits w) := rfl
  obtain ⟨h0, h1, h2⟩ := Memory.read_load_three s.mem s.pc (byteOf (w % 2 ^ nbits) 0) (byteOf (w % 2 ^ nbits) 1)
    (byteOf (w % 2 ^ nbits) 2)
  rw [hmem, tableBytes, h0, h1, h2]

/-- The bytes of a placed word can be fetched: the bus is chosen for that. -/
theorem plain_placeInstruction (s : State) (nbits w : Nat) {k : Nat} (hk : k < 3) :
    plain (placeInstruction s nbits w) (s.pc + BitVec.ofNat 16 k) := by
  by_cases h : (storage s s.pc && storage s (s.pc + 1#16) && storage s (s.pc + 2#16)) = true
  · have hbus : (placeInstruction s nbits w).bus = s.bus := if_pos h
    simp only [Bool.and_eq_true, storage_eq_true_iff] at h
    obtain ⟨⟨h0, h1⟩, h2⟩ := h
    refine plain_of_bus_eq hbus ?_
    interval_cases k
    · simpa using h0
    · exact h1
    · exact h2
  · have hbus : (placeInstruction s nbits w).bus = flatBus := if_neg h
    left
    unfold kindAt
    rw [hbus]
    obtain h | h := findBinding_flatBus (s.pc + BitVec.ofNat 16 k) <;> rw [h] <;> rfl

/-! ### The devices of the reset map (`10_state.md` R34; log entry 4) -/

theorem acia_of_mem_resetBus {b : Binding} {d : Acia} (hb : b ∈ State.resetBus) (hd : b.device = .acia d) :
    ∃ q, d = Acia.powerOn q := by
  simp only [State.resetBus, List.mem_cons, List.not_mem_nil, or_false] at hb
  obtain rfl | rfl | rfl | rfl := hb <;> cases hd
  exact ⟨_, rfl⟩

theorem spi_of_mem_resetBus {b : Binding} {p : Spi} (hb : b ∈ State.resetBus) (hp : b.device = .spi p) :
    ∃ id rs, p = Spi.powerOn id rs := by
  simp only [State.resetBus, List.mem_cons, List.not_mem_nil, or_false] at hb
  obtain rfl | rfl | rfl | rfl := hb <;> cases hp
  exact ⟨_, _, rfl⟩

end Sys2Proof.Machine

namespace Sys2Proof.Proofs

open Sys2Proof Sys2Proof.Machine Sys2Proof.Claims

/-- Settles O6: the listed bytes are those that announce no length, and the first test after the opcode read is for
them. -/
theorem undefinedOpcodesFault : Obligations.UndefinedOpcodesFault := by
  refine ⟨rfl, fun op => ?_, fun s t op hs hr hop => ?_⟩
  · rw [mem_undefinedOpcodes_iff, opcodeLength_eq_none_iff]
  · exact step_of_fetch_fault hs (fetch_of_undefined hr ((mem_undefinedOpcodes_iff op).mp hop))

/-- Settles O8: the operand bytes are read by the length that the opcode announces (`fetchOperands_two`,
`fetchOperands_three`), and after fetch and decode the step is `afterHook` of the hooks. -/
theorem stepFetchesThenHooks : Obligations.StepFetchesThenHooks := by
  refine ⟨fun s t0 t1 t2 op b1 b2 i hs hop hbytes => ?_, fun s hs => ⟨fun e t hop => ?_, fun op t0 e t hop hn h1 => ?_,
    fun op t0 b1 t1 e t hop hn h1 h2 => ?_⟩⟩
  · have hfetch : fetch s = .ok i t2 := by
      have hafter := after_of_busRead hop
      obtain ⟨hn, hd, rfl⟩ | ⟨hn, h1, hd⟩ | ⟨hn, h1, h2, hd⟩ := hbytes
      · exact fetch_of_operands hop hn (fetchOperands_one _) hd
      · exact fetch_of_operands hop hn (by rw [fetchOperands_two, hafter, h1, Res.bind_ok]) hd
      · refine fetch_of_operands hop hn ?_ hd
        rw [fetchOperands_three, hafter, h1, Res.bind_ok, hafter, h2, Res.bind_ok]
    rw [step_of_fetch_ok hs hfetch]
    exact ⟨fun u hu => by rw [hu]; rfl, fun u hu => by rw [hu]; rfl⟩
  · exact step_of_fetch_fault hs (fetch_of_busRead_fault hop)
  · have hafter := after_of_busRead hop
    obtain hn | hn := hn
    · refine step_of_fetch_fault hs (fetch_of_operand_fault (u := t) hop hn ?_)
      rw [fetchOperands_two, hafter, h1, Res.bind_fault]
    · refine step_of_fetch_fault hs (fetch_of_operand_fault (u := t) hop hn ?_)
      rw [fetchOperands_three, hafter, h1, Res.bind_fault]
  · have hafter := after_of_busRead hop
    exact step_of_fetch_fault hs
      (fetch_of_operand_fault hop hn (by rw [fetchOperands_three, hafter, h1, Res.bind_ok, hafter, h2, Res.bind_fault]))

/-- Settles O7: fetch and decode of bytes in RAM or ROM change nothing (`fetch_of_plain`), and with no monitor there is
no hook. -/
theorem stepRunsDecoded : Obligations.StepRunsDecoded := fun _ _ _ hs hm hd hplain => step_of_plain hs hm hd hplain

/-- Settles O9: the placed machine is ready, has the word at `PC` in RAM or ROM and no monitor. -/
theorem placedWordRuns : Obligations.PlacedWordRuns := by
  intro s nbits w i h
  obtain ⟨⟨i, rest⟩, hd, rfl⟩ := Option.map_eq_some_iff.mp h
  have hbytes := (congrArg decode (placeInstruction_bytes s nbits w)).trans hd
  exact step_of_plain ⟨rfl, rfl, rfl⟩ rfl hbytes fun k hk =>
    plain_placeInstruction s nbits w (hk.trans_le (length_le_three i))

/-- Settles O11: the reset state is evaluated. -/
theorem resetInvariant : Obligations.ResetInvariant := ⟨rfl, rfl, rfl⟩

/-- Settles O59: the reset state is evaluated; its map has one ACIA and one SPI slave, both at power-on. -/
theorem resetValues : Obligations.ResetValues := by
  refine ⟨rfl, rfl, rfl, ⟨_, rfl⟩, rfl, rfl, rfl, rfl, rfl, rfl, rfl, fun b hb d hd => ?_, fun b hb p hp => ?_⟩
  · obtain ⟨q, rfl⟩ := acia_of_mem_resetBus hb hd
    exact ⟨rfl, rfl, rfl, rfl, rfl, rfl, rfl, rfl, rfl⟩
  · obtain ⟨id, rs, rfl⟩ := spi_of_mem_resetBus hb hp
    exact ⟨rfl, rfl, rfl, rfl, rfl, rfl, rfl, rfl⟩

end Sys2Proof.Proofs

/-! # What every instruction changes and leaves (`10_state.md`, `20_memory.md`, `60_exceptions.md` R304) -/

namespace Sys2Proof.Machine

open Sys2Proof Sys2Proof.Claims

/-! ### The shapes of an execute phase: what a completed one has done -/

/-- `t` is `s` but for registers and flags. -/
def CpuOnly (s t : State) : Prop :=
  t = { s with pc := t.pc, a := t.a, x := t.x, y := t.y, sp := t.sp, flags := t.flags }

theorem CpuOnly.effect {s t : State} (h : CpuOnly s t) : Effect [] [] s t := by
  rw [h]; exact .same (.same rfl rfl rfl rfl rfl rfl rfl rfl rfl rfl) rfl rfl

section
variable {i : Instr} {f : State → Res Unit} {s t : State}

/-- A sequential phase that obtains a value and then changes registers and flags. -/
theorem runSequential_bind_next {α : Type} {r : Res α} {change : α → State → State}
    (h : runSequential i f s = .next t) (hf : f s = r.bind fun v u => .ok () (change v u)) :
    ∃ v u, r = .ok v u ∧ t = (change v u).setPc (nextPc i s) := by
  obtain ⟨w, hw, rfl⟩ := runSequential_next.mp h
  rw [hf] at hw
  obtain ⟨v, u, hr, hc⟩ := Res.bind_eq_ok.mp hw
  cases hc
  exact ⟨v, u, hr, rfl⟩

/-- A sequential phase that always completes. -/
theorem runSequential_ok_next {u : State} (h : runSequential i f s = .next t) (hf : f s = .ok () u) :
    t = u.setPc (nextPc i s) := by
  obtain ⟨w, hw, rfl⟩ := runSequential_next.mp h
  rw [hf] at hw
  cases hw; rfl

/-- A control phase that obtains a value and then sets `PC`. -/
theorem runControl_setPc_next {α : Type} {r : Res α} {target : α → Addr} (h : runControl i f s = .next t)
    (hf : f s = r.bind fun v u => .ok () (u.setPc (target v))) : ∃ v u, r = .ok v u ∧ t = u.setPc (target v) := by
  rw [runControl_next, hf] at h
  obtain ⟨v, u, hr, hc⟩ := Res.bind_eq_ok.mp h
  cases hc
  exact ⟨v, u, hr, rfl⟩

end

/-- `ADC` or `SBC` that goes on has read its operand and put the result and the flags. -/
theorem runArithmetic_ok {i : Instr} {src : Source} {f : Params → Flags → Byte → Byte → Byte × Flags} {s t : State}
    (h : runArithmetic i src f s = .next t) :
    ∃ m u, loadSource src s = .ok m u ∧ t = { u with
      a := (f s.params s.flags s.a m).1, flags := (f s.params s.flags s.a m).2, pc := after s i.length } := by
  obtain ⟨hok, hrefused, hfault⟩ := runArithmetic_outcomes i src f s
  cases hl : loadSource src s with
  | fault e u => rw [hfault e u hl] at h; cases h
  | ok m u =>
    by_cases hr : refuseOn s
    · rw [hrefused m u hl hr] at h; cases h
    · rw [hok m u hl hr] at h; cases h; exact ⟨m, u, rfl, rfl⟩

/-! ### The operands of the instructions that store -/

/-- The mnemonics that store at their effective address, a shift or rotate only in its memory form. -/
def storeMnemonics : List Mnemonic := [.STA, .STX, .STY, .INC, .DEC]

theorem operand_memory_of_store {i : Instr} (h : i.mnemonic ∈ storeMnemonics) : ∃ m, i.operand = .memory m := by
  cases i <;> simp [storeMnemonics, Instr.mnemonic, Instr.operand] at h ⊢

theorem operand_of_shift {i : Instr} (h : i.mnemonic ∈ shiftMnemonics) :
    i.operand = .accumulator ∨ ∃ m, i.operand = .memory m := by
  cases i <;> simp [shiftMnemonics, Instr.mnemonic, Instr.operand] at h ⊢

theorem accessed_of_memory {i : Instr} {m : MemOperand} (h : i.operand = .memory m) (s : State) :
    accessed i s = pointerAddresses m s ++ eaOf m s := by
  simp only [accessed, h]

theorem sourceAddresses_subset_accessed (i : Instr) (s : State) :
    sourceAddresses i.operand.source s ⊆ accessed i s := by
  cases h : i.operand with
  | memory m => rw [accessed_of_memory h]; exact List.Subset.refl _
  | _ => exact List.nil_subset _

theorem stored_of_store {i : Instr} {m : MemOperand} (hm : i.mnemonic ∈ storeMnemonics ++ shiftMnemonics)
    (ho : i.operand = .memory m) (s : State) : stored i s = eaOf m s := by
  simp only [storeMnemonics, shiftMnemonics, List.mem_append, List.mem_cons, List.not_mem_nil, or_false] at hm
  obtain (hm | hm | hm | hm | hm) | hm | hm | hm | hm := hm <;> simp only [stored, hm, ho]

/-! ### The accesses and the stores of every instruction (`20_memory.md` R63) -/

section
variable {i : Instr} {s t u : State}

/-- An instruction that reads its operand and then changes registers and flags alone. -/
theorem effect_of_load {v : Byte} (hl : loadSource i.operand.source s = .ok v u) (hu : CpuOnly u t) :
    Effect (accessed i s) (stored i s) s t :=
  ((Effect.loadSource hl).trans hu.effect).mono (by simpa using sourceAddresses_subset_accessed i s) (List.nil_subset _)

/-- An instruction that changes registers and flags alone. -/
theorem effect_of_cpuOnly (h : CpuOnly s t) : Effect (accessed i s) (stored i s) s t :=
  h.effect.mono (List.nil_subset _) (List.nil_subset _)

/-- A pure store. -/
theorem effect_of_store {v : Byte} (hm : i.mnemonic ∈ storeMnemonics) (hw : storeByte i.operand.place v s = .ok () u)
    (hu : CpuOnly u t) : Effect (accessed i s) (stored i s) s t := by
  obtain ⟨m, ho⟩ := operand_memory_of_store hm
  rw [accessed_of_memory ho, stored_of_store (List.mem_append_left _ hm) ho]
  rw [ho, Operand.place] at hw
  exact ((Effect.storeByte hw).trans hu.effect).mono (by simp) (by simp)

/-- A read-modify-write on memory, the state before the store changed in registers and flags alone. -/
theorem effect_of_modify {m : MemOperand} {g : Byte → State → Byte × State} {r : Byte}
    (hm : i.mnemonic ∈ storeMnemonics ++ shiftMnemonics) (ho : i.operand = .memory m)
    (hw : modify (.memory m) g s = .ok r u) (hg : ∀ v w, CpuOnly w (g v w).2) (hu : CpuOnly u t) :
    Effect (accessed i s) (stored i s) s t := by
  obtain ⟨ea, u1, v, u2, ha, hr, -, hw⟩ := modify_memory_ok hw
  rw [accessed_of_memory ho, stored_of_store hm ho, eaOf_ok ha]
  exact (((((Effect.effectiveAddress ha).trans (.busRead hr)).trans (hg v u2).effect).trans (.busWrite hw)).trans
    hu.effect).mono (by simp) (by simp)

/-- A shift or rotate in either of its forms. -/
theorem effect_of_shift {f : Bool → Byte → Byte × Bool} (hm : i.mnemonic ∈ shiftMnemonics)
    (h : runSequential i (shiftWith i.operand.target? f) s = .next t) : Effect (accessed i s) (stored i s) s t := by
  obtain ⟨r, u, hw, rfl⟩ := runSequential_bind_next h rfl
  obtain ho | ⟨m, ho⟩ := operand_of_shift hm <;> rw [ho] at hw
  · cases hw; exact effect_of_cpuOnly rfl
  · exact effect_of_modify (List.mem_append_right _ hm) ho hw (fun _ _ => rfl) rfl

theorem effect_of_push {v : Byte} (hw : push v s = .ok () u) (hu : CpuOnly u t) :
    Effect [stackSlot s 0#8] [stackSlot s 0#8] s t := by
  rw [← stackAddr_after (t := s) (n := 0#8) rfl (by simp)]
  exact (Effect.push hw).trans hu.effect

theorem effect_of_pull {v : Byte} (hw : pull s = .ok v u) (hu : CpuOnly u t) : Effect [stackSlot s (-1#8)] [] s t := by
  rw [← pull_slot]
  exact (Effect.pull hw).trans hu.effect

end

/-- A word read at two addresses. -/
theorem effect_readWord {first second w : Addr} {s t : State} (h : readWord first second s = .ok w t) :
    Effect [first, second] [] s t := by
  obtain ⟨_, _, h1, h⟩ := Res.bind_eq_ok.mp h
  obtain ⟨_, _, h2, h⟩ := Res.bind_eq_ok.mp h
  cases h
  exact (Effect.busRead h1).trans (.busRead h2)

theorem sameCpu_readWord {first second w : Addr} {s t : State} (h : readWord first second s = .ok w t) :
    SameCpu s t := by
  obtain ⟨_, _, h1, h⟩ := Res.bind_eq_ok.mp h
  obtain ⟨_, _, h2, h⟩ := Res.bind_eq_ok.mp h
  cases h
  exact (SameCpu.busRead h1).trans (.busRead h2)

/-- What an instruction that goes on has done to memory and devices: it reaches the addresses of its rule, stores to
those of `stored`, and keeps the rest. -/
theorem exec_effect {i : Instr} {s t : State} (h : exec i s = .next t) : Effect (accessed i s) (stored i s) s t := by
  rw [exec_eq_execBy] at h
  cases hm : i.mnemonic <;> simp only [execBy, hm] at h
  case LDA | LDX | LDY | CMP | CPX | CPY | AND | ORA | EOR | BIT =>
    obtain ⟨v, u, hl, rfl⟩ := runSequential_bind_next h rfl
    exact effect_of_load hl rfl
  case ADC | SBC =>
    obtain ⟨v, u, hl, rfl⟩ := runArithmetic_ok h
    exact effect_of_load hl rfl
  case STA | STX | STY =>
    obtain ⟨u, hw, rfl⟩ := runSequential_next.mp h
    exact effect_of_store (by rw [hm]; decide) hw rfl
  case INC | DEC =>
    obtain ⟨r, u, hw, rfl⟩ := runSequential_bind_next h rfl
    obtain ⟨m, ho⟩ := operand_memory_of_store (i := i) (by rw [hm]; decide)
    rw [ho] at hw
    exact effect_of_modify (by rw [hm]; decide) ho hw (fun _ _ => rfl) rfl
  case ASL | LSR | ROL | ROR => exact effect_of_shift (by rw [hm]; decide) h
  case TAX | TAY | TXA | TYA | TSX | TXS | INX | INY | DEX | DEY | CLC | SEC | CLI | SEI | CLD | SED | CLV | NOP =>
    rw [runSequential_ok_next h rfl]; exact effect_of_cpuOnly rfl
  case BCC | BCS | BEQ | BNE | BMI | BPL | BVC | BVS => cases runControl_next.mp h; exact effect_of_cpuOnly rfl
  case JMP =>
    split at h
    case h_1 ptr ho =>
      obtain ⟨w, u, hw, rfl⟩ := runControl_setPc_next h (jmpIndirect_eq_readWord ptr s)
      rw [show accessed i s = [ptr, indirectHighAddress s.params ptr] by simp only [accessed, hm, ho]]
      exact ((effect_readWord hw).trans (.setPc u w)).mono (by simp) (List.nil_subset _)
    case h_2 => cases runControl_next.mp h; exact effect_of_cpuOnly rfl
  all_goals cases i <;> cases hm
  case PHA | PHP =>
    obtain ⟨u, hw, rfl⟩ := runSequential_next.mp h
    exact effect_of_push hw rfl
  case PLA | PLP =>
    obtain ⟨v, u, hw, rfl⟩ := runSequential_bind_next h rfl
    exact effect_of_pull hw rfl
  case JSR =>
    obtain ⟨_, u, hw, rfl⟩ := runControl_setPc_next h (r := pushWord (s.pc + 2#16) s) rfl
    exact (Effect.pushWord hw).trans (.setPc u _)
  case RTS =>
    obtain ⟨w, u, hw, rfl⟩ := runControl_setPc_next h (rts_eq_pullWord s)
    exact (Effect.pullWord hw).trans (.setPc u _)
  case BRK =>
    have ht : takeTrap s.params.brkVector (s.pc + 2#16) s = .ok () t := runControl_next.mp h
    exact Effect.takeTrap ht
  case RTI => exact Effect.returnFromTrap (runControl_next.mp h)

/-! ### The registers and flags of every instruction (`10_state.md` R20 to R26) -/

/-- Every register and flag that the tables of writers do not give to the instruction is as before. -/
structure CpuFrame (i : Instr) (s t : State) : Prop where
  a        : i.mnemonic ∉ aWriters → ¬(i.mnemonic ∈ shiftMnemonics ∧ i.mode = .ACC) → t.a = s.a
  x        : i.mnemonic ∉ xWriters → t.x = s.x
  y        : i.mnemonic ∉ yWriters → t.y = s.y
  sp       : i.mnemonic ∉ spWriters → t.sp = s.sp
  negative : i.mnemonic ∉ nzWriters → t.flags.n = s.flags.n
  zero     : i.mnemonic ∉ nzWriters → t.flags.z = s.flags.z
  carry    : i.mnemonic ∉ cWriters → t.flags.c = s.flags.c
  overflow : i.mnemonic ∉ vWriters → t.flags.v = s.flags.v
  decimal  : i.mnemonic ∉ dWriters → t.flags.d = s.flags.d
  disable  : i.mnemonic ∉ iWriters → t.flags.i = s.flags.i

section
variable {i : Instr} {s t u : State}

/-- Bus accesses before an instruction's own changes play no part. -/
theorem CpuFrame.after_sameCpu (h : SameCpu s u) (hf : CpuFrame i u t) : CpuFrame i s t where
  a        := fun k l => (hf.a k l).trans h.a
  x        := fun k => (hf.x k).trans h.x
  y        := fun k => (hf.y k).trans h.y
  sp       := fun k => (hf.sp k).trans h.sp
  negative := fun k => (hf.negative k).trans (by rw [h.flags])
  zero     := fun k => (hf.zero k).trans (by rw [h.flags])
  carry    := fun k => (hf.carry k).trans (by rw [h.flags])
  overflow := fun k => (hf.overflow k).trans (by rw [h.flags])
  decimal  := fun k => (hf.decimal k).trans (by rw [h.flags])
  disable  := fun k => (hf.disable k).trans (by rw [h.flags])

/-- Nor do bus accesses after them. -/
theorem CpuFrame.before_sameCpu (h : SameCpu u t) (hf : CpuFrame i s u) : CpuFrame i s t where
  a        := fun k l => h.a.trans (hf.a k l)
  x        := fun k => h.x.trans (hf.x k)
  y        := fun k => h.y.trans (hf.y k)
  sp       := fun k => h.sp.trans (hf.sp k)
  negative := fun k => by rw [h.flags]; exact hf.negative k
  zero     := fun k => by rw [h.flags]; exact hf.zero k
  carry    := fun k => by rw [h.flags]; exact hf.carry k
  overflow := fun k => by rw [h.flags]; exact hf.overflow k
  decimal  := fun k => by rw [h.flags]; exact hf.decimal k
  disable  := fun k => by rw [h.flags]; exact hf.disable k

/-- A writer of `SP` may move it first. -/
theorem CpuFrame.after_setSp {v : Byte} (hm : i.mnemonic ∈ spWriters) (hf : CpuFrame i (s.setSp v) t) :
    CpuFrame i s t :=
  { hf with sp := fun k => absurd hm k }

/-- A writer of `C` may write it first. -/
theorem CpuFrame.after_setC {c : Bool} (hm : i.mnemonic ∈ cWriters) (hf : CpuFrame i (s.setC c) t) : CpuFrame i s t :=
  { hf with carry := fun k => absurd hm k }

end

/-- A shift or rotate on memory changes no register and of the flags `C` alone, before the result is known. -/
theorem sameCpu_of_shift_memory {m : MemOperand} {f : Bool → Byte → Byte × Bool} {r : Byte} {s t : State}
    (h : modify (.memory m) (fun v s => ((f s.flags.c v).1, s.setC (f s.flags.c v).2)) s = .ok r t) :
    ∃ c, SameCpu (s.setC c) t := by
  obtain ⟨ea, u, v, w, ha, hr, -, hw⟩ := modify_memory_ok h
  have hread : SameCpu s w := (SameCpu.effectiveAddress ha).trans (.busRead hr)
  have hset : SameCpu (s.setC (f w.flags.c v).2) (w.setC (f w.flags.c v).2) :=
    ⟨hread.pc, hread.a, hread.x, hread.y, hread.sp, by rw [State.setC_flags, State.setC_flags, hread.flags]⟩
  exact ⟨_, hset.trans (.busWrite hw)⟩

/-- A shift or rotate writes `N`, `Z` and `C`, and `A` in its accumulator form. -/
theorem cpuFrame_of_shift {i : Instr} {s t : State} {f : Bool → Byte → Byte × Bool} (hm : i.mnemonic ∈ shiftMnemonics)
    (h : runSequential i (shiftWith i.operand.target? f) s = .next t) : CpuFrame i s t := by
  have hc : i.mnemonic ∈ cWriters := (by decide : shiftMnemonics ⊆ cWriters) hm
  have hnz : i.mnemonic ∈ nzWriters := (by decide : shiftMnemonics ⊆ nzWriters) hm
  obtain ⟨r, u, hw, rfl⟩ := runSequential_bind_next h rfl
  obtain ho | ⟨m, ho⟩ := operand_of_shift hm <;> rw [ho] at hw
  · have hmode : i.mode = .ACC := by rw [Instr.mode, ho]; rfl
    cases hw
    refine .after_setC (c := (f s.flags.c s.a).2) hc ?_
    constructor <;> simp [hm, hmode, hnz, Flags.setNZ]
  · obtain ⟨c, hcpu⟩ := sameCpu_of_shift_memory (m := m) (f := f) hw
    refine .after_setC hc (.after_sameCpu hcpu ?_)
    constructor <;> simp [hnz, Flags.setNZ]

/-- An addition or subtraction writes `A`, `N`, `V`, `Z` and `C`; `D` and `I` pass through its result. -/
theorem cpuFrame_of_arithmetic {i : Instr} {s t : State} {f : Params → Flags → Byte → Byte → Byte × Flags}
    (hm : i.mnemonic ∈ [Mnemonic.ADC, .SBC])
    (hf : ∀ ps g a m, (f ps g a m).2.d = g.d ∧ (f ps g a m).2.i = g.i)
    (h : runArithmetic i i.operand.source f s = .next t) : CpuFrame i s t := by
  obtain ⟨v, u, hl, rfl⟩ := runArithmetic_ok h
  obtain ⟨hd, hi⟩ := hf s.params s.flags s.a v
  obtain ⟨-, -, hx, hy, hsp, -⟩ := SameCpu.loadSource hl
  simp only [List.mem_cons, List.not_mem_nil, or_false] at hm
  constructor <;> obtain hm | hm := hm <;>
    simp [hm, hx, hy, hsp, hd, hi, aWriters, nzWriters, writesNZ, writesNZC, cWriters, vWriters]

theorem adcResult_decimal_disable (ps : Params) (f : Flags) (a m : Byte) :
    (adcResult ps f a m).2.d = f.d ∧ (adcResult ps f a m).2.i = f.i := by
  unfold adcResult; split <;> exact ⟨rfl, rfl⟩

theorem sbcResult_decimal_disable (ps : Params) (f : Flags) (a m : Byte) :
    (sbcResult ps f a m).2.d = f.d ∧ (sbcResult ps f a m).2.i = f.i := by
  unfold sbcResult; split <;> exact ⟨rfl, rfl⟩

/-- The bus accesses of an instruction leave the CPU alone, so its frame is that of its own changes, which each case
brings out; the tables of writers then decide each field. -/
theorem exec_cpuFrame {i : Instr} {s t : State} (h : exec i s = .next t) : CpuFrame i s t := by
  rw [exec_eq_execBy] at h
  cases hm : i.mnemonic <;> simp only [execBy, hm] at h
  case' LDA | LDX | LDY | CMP | CPX | CPY | AND | ORA | EOR | BIT =>
    obtain ⟨v, u, hl, rfl⟩ := runSequential_bind_next h rfl
    refine .after_sameCpu (.loadSource hl) ?_
  case ADC => exact cpuFrame_of_arithmetic (by rw [hm]; decide) adcResult_decimal_disable h
  case SBC => exact cpuFrame_of_arithmetic (by rw [hm]; decide) sbcResult_decimal_disable h
  case' STA | STX | STY =>
    obtain ⟨u, hw, rfl⟩ := runSequential_next.mp h
    refine .after_sameCpu (.storeByte hw) ?_
  case' INC | DEC =>
    obtain ⟨r, u, hw, rfl⟩ := runSequential_bind_next h rfl
    obtain ⟨m, ho⟩ := operand_memory_of_store (i := i) (by rw [hm]; decide)
    rw [ho] at hw
    obtain ⟨ea, _, v, _, ha, hr, -, hw⟩ := modify_memory_ok hw
    refine .after_sameCpu (((SameCpu.effectiveAddress ha).trans (.busRead hr)).trans (.busWrite hw)) ?_
  case ASL | LSR | ROL | ROR => exact cpuFrame_of_shift (by rw [hm]; decide) h
  case' TAX | TAY | TXA | TYA | TSX | TXS | INX | INY | DEX | DEY | CLC | SEC | CLI | SEI | CLD | SED | CLV | NOP =>
    obtain rfl := runSequential_ok_next h rfl
  case' PHA | PHP =>
    obtain ⟨u, hw, rfl⟩ := runSequential_next.mp h
    refine .after_setSp (by rw [hm]; decide) (.after_sameCpu (.push hw) ?_)
  case' PLA | PLP =>
    obtain ⟨v, u, hw, rfl⟩ := runSequential_bind_next h rfl
    refine .after_setSp (by rw [hm]; decide) (.after_sameCpu (.pull hw) ?_)
  case' BCC | BCS | BEQ | BNE | BMI | BPL | BVC | BVS => cases runControl_next.mp h
  case' JMP =>
    split at h
    case' h_1 =>
      obtain ⟨w, u, hw, rfl⟩ := runControl_setPc_next h (jmpIndirect_eq_readWord _ s)
      refine .after_sameCpu (sameCpu_readWord hw) ?_
    case' h_2 => cases runControl_next.mp h
  case' JSR =>
    obtain ⟨_, u, hw, rfl⟩ := runControl_setPc_next h (r := pushWord (s.pc + 2#16) s) rfl
    refine .after_setSp (by rw [hm]; decide) (.after_sameCpu (.pushWord hw) ?_)
  case' RTS =>
    obtain ⟨w, u, hw, rfl⟩ := runControl_setPc_next h (rts_eq_pullWord s)
    refine .after_setSp (by rw [hm]; decide) (.after_sameCpu (.pullWord hw) ?_)
  case' BRK =>
    have ht : takeTrap s.params.brkVector (s.pc + 2#16) s = .ok () t := runControl_next.mp h
    refine .before_sameCpu (.takeTrap ht) ?_
  case' RTI => refine .before_sameCpu (.returnFromTrap (runControl_next.mp h)) ?_
  all_goals
    constructor <;> simp [hm, aWriters, xWriters, yWriters, spWriters, nzWriters, writesNZ, writesNZC, cWriters,
      vWriters, dWriters, iWriters, Flags.setNZ, Flags.compare, Flags.bitTest]

/-- An instruction that is no control transfer ends on the next one (`30_encoding.md` R80). -/
theorem exec_pc {i : Instr} {s t : State} (h : exec i s = .next t) (hc : i.mnemonic ∉ controlTransfers) :
    t.pc = after s i.length := by
  rw [exec_eq_execBy] at h
  cases hm : i.mnemonic <;> simp only [execBy, hm] at h
  case ADC | SBC => obtain ⟨_, _, -, rfl⟩ := runArithmetic_ok h; rfl
  case JMP | JSR | RTS | BCC | BCS | BEQ | BNE | BMI | BPL | BVC | BVS | BRK | RTI =>
    exact absurd (by rw [hm]; decide) hc
  all_goals obtain ⟨u, -, rfl⟩ := runSequential_next.mp h; exact nextPc_eq_after i s

/-! ### Where an instruction completes (`20_memory.md` R53, R54, R56) -/

section
variable {s : State}

theorem loadSource_next {src : Source} (h : ∀ a ∈ sourceAddresses src s, mapped s a = true) :
    ∃ v t, loadSource src s = .ok v t := by
  cases src with
  | immediate v => exact ⟨v, s, rfl⟩
  | memory m =>
    obtain ⟨ea, t, ha, hk⟩ := effectiveAddress_next fun a h1 => h a (List.mem_append_left _ h1)
    obtain ⟨v, u, hr, -⟩ := busRead_next hk (h ea (List.mem_append_right _ (by rw [eaOf_ok ha]; exact .head _)))
    exact ⟨v, u, by rw [loadSource, ha, Res.bind_ok, hr]⟩

variable {m : MemOperand} (hmap : ∀ a ∈ pointerAddresses m s ++ eaOf m s, mapped s a = true)
  (hrom : ∀ a ∈ eaOf m s, kindAt s a = some .rom → s.params.romWrite = .ignore)
include hmap hrom

theorem storeByte_next (v : Byte) : ∃ t, storeByte m v s = .ok () t := by
  obtain ⟨ea, t, ha, hk⟩ := effectiveAddress_next fun a h1 => hmap a (List.mem_append_left _ h1)
  rw [eaOf_ok ha] at hmap hrom
  obtain ⟨u, hw, -⟩ := busWrite_next v hk (hmap ea (by simp)) (hrom ea (by simp))
  exact ⟨u, by rw [storeByte, ha, Res.bind_ok, hw]⟩

theorem modify_memory_next {g : Byte → State → Byte × State} (hg : ∀ v w, CpuOnly w (g v w).2) :
    ∃ r t, modify (.memory m) g s = .ok r t := by
  obtain ⟨ea, t, ha, hk⟩ := effectiveAddress_next fun a h1 => hmap a (List.mem_append_left _ h1)
  rw [eaOf_ok ha] at hmap hrom
  obtain ⟨v, u, hr, hk⟩ := busRead_next hk (hmap ea (by simp))
  obtain ⟨w, hw, -⟩ := busWrite_next (g v u).1 (hk.trans (hg v u).effect.kept) (hmap ea (by simp)) (hrom ea (by simp))
  exact ⟨_, w, by rw [modify, ha, Res.bind_ok, hr, Res.bind_ok, hw, Res.map_ok]⟩

end

section
variable {i : Instr} {f : State → Res Unit} {s u : State} {α : Type} {v : α}

theorem runSequential_completes {change : α → State → State} {r : Res α} (hr : r = .ok v u)
    (hf : f s = r.bind fun v u => .ok () (change v u)) : ∃ t, runSequential i f s = .next t :=
  ⟨_, runSequential_next.mpr ⟨_, by rw [hf, hr, Res.bind_ok], rfl⟩⟩

theorem runControl_completes {change : α → State → State} {r : Res α} (hr : r = .ok v u)
    (hf : f s = r.bind fun v u => .ok () (change v u)) : ∃ t, runControl i f s = .next t :=
  ⟨_, runControl_next.mpr (by rw [hf, hr, Res.bind_ok])⟩

end

section
variable {s : State}

theorem pushWord_next {w : Addr} (h0 : mapped s (stackSlot s 0#8) = true) (h1 : mapped s (stackSlot s 1#8) = true)
    (r0 : kindAt s (stackSlot s 0#8) = some .rom → s.params.romWrite = .ignore)
    (r1 : kindAt s (stackSlot s 1#8) = some .rom → s.params.romWrite = .ignore) :
    ∃ t, pushWord w s = .ok () t ∧ Kept s t ∧ t.sp = s.sp - 2#8 := by
  obtain ⟨t, e1, k1, p1⟩ := push_next (hi w) (.refl s) (by simp) h0 r0
  obtain ⟨u, e2, k2, p2⟩ := push_next (lo w) k1 p1 h1 r1
  exact ⟨u, by rw [pushWord, e1, Res.bind_ok, e2], k2, p2⟩

theorem pullWord_next {u : State} {k : Byte} (e : Kept s u) (hs : u.sp = s.sp - (k + 2#8))
    (h1 : mapped s (stackSlot s (k + 1#8)) = true) (h2 : mapped s (stackSlot s k) = true) :
    ∃ w t, pullWord u = .ok w t := by
  obtain ⟨l, t, e1, k1, p1⟩ := pull_next (k := k + 1#8) e (by rw [hs]; bv_omega) h1
  obtain ⟨h, v, e2, -, -⟩ := pull_next k1 p1 h2
  exact ⟨_, v, by rw [pullWord, e1, Res.bind_ok, e2, Res.bind_ok]⟩

theorem readWord_next {first second : Addr} {u : State} (k : Kept s u) (h1 : mapped s first = true)
    (h2 : mapped s second = true) : ∃ w t, readWord first second u = .ok w t := by
  obtain ⟨l, t, e1, k1⟩ := busRead_next k h1
  obtain ⟨h, v, e2, -⟩ := busRead_next k1 h2
  exact ⟨_, v, by rw [readWord, e1, Res.bind_ok, e2, Res.bind_ok]⟩

theorem takeTrap_next {vector ret : Addr} (h : ∀ k ∈ [0#8, 1#8, 2#8], mapped s (stackSlot s k) = true ∧
      (kindAt s (stackSlot s k) = some .rom → s.params.romWrite = .ignore))
    (h1 : mapped s vector = true) (h2 : mapped s (vector + 1#16) = true) : ∃ t, takeTrap vector ret s = .ok () t := by
  obtain ⟨m0, r0⟩ := h 0#8 (by simp)
  obtain ⟨m1, r1⟩ := h 1#8 (by simp)
  obtain ⟨m2, r2⟩ := h 2#8 (by simp)
  obtain ⟨u, e1, k1, p1⟩ := pushWord_next (w := ret) m0 m1 r0 r1
  obtain ⟨v, e2, k2, -⟩ := push_next u.flags.pushed k1 p1 m2 r2
  obtain ⟨w, t, e3⟩ := readWord_next (k2.trans (.setFlags v { v.flags with i := true })) h1 h2
  exact ⟨t.setPc w, by rw [takeTrap, e1, Res.bind_ok, e2, Res.bind_ok]; exact (congrArg (Res.bind · _) e3).trans rfl⟩

theorem returnFromTrap_next (h1 : mapped s (stackSlot s (-1#8)) = true) (h2 : mapped s (stackSlot s (-2#8)) = true)
    (h3 : mapped s (stackSlot s (-3#8)) = true) : ∃ t, returnFromTrap s = .ok () t := by
  obtain ⟨v, u, e1, k1, p1⟩ := pull_next (k := -1#8) (.refl s) (by bv_omega) h1
  obtain ⟨w, t, e2⟩ := pullWord_next (k := -3#8) (k1.trans (.setFlags u (Flags.ofByte v)))
    (by rw [State.setFlags_sp, p1]; rfl) h2 h3
  exact ⟨t.setPc w, by rw [returnFromTrap, e1, Res.bind_ok, e2, Res.bind_ok]⟩

end

section
variable {i : Instr} {s : State} (hmap : ∀ a ∈ accessed i s, mapped s a = true)
  (hrom : ∀ a ∈ stored i s, kindAt s a = some .rom → s.params.romWrite = .ignore)
include hmap hrom

theorem modify_completes {f : MemOperand → State → Res Unit} {result : Byte → Byte} (hm : i.mnemonic ∈ storeMnemonics)
    (hf : ∀ m, f m s = (modify (.memory m) (fun v s => (result v, s)) s).bind fun r s => .ok () (s.setNZ r)) :
    ∃ t, runSequential i (f i.operand.place) s = .next t := by
  obtain ⟨m, ho⟩ := operand_memory_of_store hm
  rw [accessed_of_memory ho] at hmap
  rw [stored_of_store (List.mem_append_left _ hm) ho] at hrom
  obtain ⟨r, t, hw⟩ := modify_memory_next hmap hrom (g := fun v s => (result v, s)) fun _ _ => rfl
  rw [ho]
  exact runSequential_completes hw (hf m)

theorem shift_completes {f : Bool → Byte → Byte × Bool} (hm : i.mnemonic ∈ shiftMnemonics) :
    ∃ t, runSequential i (shiftWith i.operand.target? f) s = .next t := by
  obtain ho | ⟨m, ho⟩ := operand_of_shift hm
  · rw [ho]; exact ⟨_, runSequential_next.mpr ⟨_, rfl, rfl⟩⟩
  · rw [accessed_of_memory ho] at hmap
    rw [stored_of_store (List.mem_append_right _ hm) ho] at hrom
    obtain ⟨r, t, hw⟩ := modify_memory_next hmap hrom
      (g := fun v s => ((f s.flags.c v).1, s.setC (f s.flags.c v).2)) fun _ _ => rfl
    rw [ho]
    exact runSequential_completes hw rfl

end

/-- An instruction whose addresses are mapped, whose stores do not reach ROM that faults, and which is not told to
refuse, completes. -/
theorem exec_completes {i : Instr} {s : State} (hmap : ∀ a ∈ accessed i s, mapped s a = true)
    (hrom : ∀ a ∈ stored i s, kindAt s a = some .rom → s.params.romWrite = .ignore)
    (hrefuse : i.mnemonic ∈ [Mnemonic.ADC, .SBC] → ¬ refuseOn s) : ∃ t, exec i s = .next t := by
  rw [exec_eq_execBy]
  cases hm : i.mnemonic <;> simp only [execBy, hm]
  case LDA | LDX | LDY | CMP | CPX | CPY | AND | ORA | EOR | BIT =>
    obtain ⟨v, u, hl⟩ := loadSource_next fun a ha => hmap a (sourceAddresses_subset_accessed i s ha)
    exact runSequential_completes hl rfl
  case ADC | SBC =>
    obtain ⟨v, u, hl⟩ := loadSource_next fun a ha => hmap a (sourceAddresses_subset_accessed i s ha)
    obtain ⟨hok, -, -⟩ := runArithmetic_outcomes i i.operand.source _ s
    exact ⟨_, hok v u hl (hrefuse (by rw [hm]; decide))⟩
  case STA | STX | STY =>
    obtain ⟨m, ho⟩ := operand_memory_of_store (i := i) (by rw [hm]; decide)
    rw [accessed_of_memory ho] at hmap
    rw [stored_of_store (by rw [hm]; decide) ho] at hrom
    obtain ⟨t, hw⟩ := storeByte_next hmap hrom _
    exact ⟨_, runSequential_next.mpr ⟨t, by rw [ho]; exact hw, rfl⟩⟩
  case INC | DEC => exact modify_completes hmap hrom (by rw [hm]; decide) fun _ => rfl
  case ASL | LSR | ROL | ROR => exact shift_completes hmap hrom (by rw [hm]; decide)
  case TAX | TAY | TXA | TYA | TSX | TXS | INX | INY | DEX | DEY | CLC | SEC | CLI | SEI | CLD | SED | CLV | NOP =>
    exact ⟨_, runSequential_next.mpr ⟨_, rfl, rfl⟩⟩
  case BCC | BCS | BEQ | BNE | BMI | BPL | BVC | BVS => exact ⟨_, runControl_next.mpr rfl⟩
  case JMP =>
    split
    case h_1 ptr ho =>
      rw [show accessed i s = [ptr, indirectHighAddress s.params ptr] by simp only [accessed, hm, ho]] at hmap
      obtain ⟨w, t, hw⟩ := readWord_next (.refl s) (hmap ptr (by simp))
        (hmap (indirectHighAddress s.params ptr) (by simp))
      exact runControl_completes hw (jmpIndirect_eq_readWord ptr s)
    case h_2 => exact ⟨_, runControl_next.mpr rfl⟩
  all_goals cases i <;> cases hm
  case PHA | PHP =>
    obtain ⟨t, hw, -, -⟩ := push_next (k := 0#8) _ (.refl s) (by simp) (hmap _ (.head _)) (hrom _ (.head _))
    exact ⟨_, runSequential_next.mpr ⟨t, hw, rfl⟩⟩
  case PLA | PLP =>
    obtain ⟨v, t, hw, -, -⟩ := pull_next (k := -1#8) (.refl s) (by bv_omega) (hmap _ (.head _))
    exact runSequential_completes hw rfl
  case JSR target =>
    obtain ⟨t, hw, -, -⟩ := pushWord_next (w := s.pc + 2#16) (hmap _ (.head _)) (hmap _ (.tail _ (.head _)))
      (hrom _ (.head _)) (hrom _ (.tail _ (.head _)))
    exact runControl_completes (change := fun _ t => t.setPc target) hw rfl
  case RTS =>
    obtain ⟨w, t, hw⟩ := pullWord_next (k := -2#8) (.refl s) (by bv_omega) (hmap _ (.head _))
      (hmap _ (.tail _ (.head _)))
    exact runControl_completes hw (rts_eq_pullWord s)
  case BRK =>
    simp only [accessed, stored, Instr.mnemonic, Instr.operand, List.forall_mem_cons] at hmap hrom
    obtain ⟨m0, m1, m2, m3, m4, -⟩ := hmap
    obtain ⟨r0, r1, r2, -⟩ := hrom
    obtain ⟨t, ht⟩ := takeTrap_next (ret := s.pc + 2#16) (by simp [m0, m1, m2]; exact ⟨r0, r1, r2⟩) m3 m4
    exact ⟨t, runControl_next.mpr ht⟩
  case RTI =>
    simp only [accessed, Instr.mnemonic, Instr.operand, List.forall_mem_cons] at hmap
    obtain ⟨m1, m2, m3, -⟩ := hmap
    obtain ⟨t, ht⟩ := returnFromTrap_next m1 m2 m3
    exact ⟨t, runControl_next.mpr ht⟩

end Sys2Proof.Machine

namespace Sys2Proof.Proofs

open Sys2Proof Sys2Proof.Machine Sys2Proof.Claims

/-- Settles O13: the effect of an instruction keeps the host's side (`exec_effect`). -/
theorem execLeavesHostSide : Obligations.ExecLeavesHostSide := by
  intro i s t h
  obtain ⟨hrun, hhalt, hmonitors, hdbg, hcommands, hagenda, htrace, hparams, hlayout, -, -⟩ := (exec_effect h).kept
  exact ⟨hrun, hhalt, hmonitors, hdbg, hcommands, hagenda, htrace, hparams, hlayout⟩

/-- Settles O14: the flag fields of the frame (`exec_cpuFrame`). -/
theorem flagFrame : Obligations.FlagFrame := by
  intro i s t h
  have hf := exec_cpuFrame h
  exact ⟨fun k => ⟨hf.negative k, hf.zero k⟩, hf.carry, hf.overflow, hf.decimal, hf.disable⟩

/-- Settles O15: the register fields of the frame (`exec_cpuFrame`). -/
theorem registerFrame : Obligations.RegisterFrame := by
  intro i s t h
  have hf := exec_cpuFrame h
  exact ⟨hf.a, hf.x, hf.y, hf.sp⟩

/-- Settles O16: an instruction stores to no other address (`exec_effect`). -/
theorem memoryFrame : Obligations.MemoryFrame := fun _ _ _ h a ha => (exec_effect h).memory a ha

/-- Settles O17: an instruction reaches no other address, so the binding is found as before (`exec_effect`). -/
theorem deviceFrame : Obligations.DeviceFrame := by
  intro i s t h c b hb hout
  have hsame := (exec_effect h).devices c fun a ha b' hb' => by
    rw [hb] at hb'; cases hb'; exact hout a ha
  rw [hsame, hb]

/-- Settles O18: the accesses complete one after the other (`exec_completes`), and a sequential phase ends on the next
instruction (`exec_pc`). -/
theorem everyInstructionCompletes : Obligations.EveryInstructionCompletes := by
  intro i s hmap hrom hrefuse
  obtain ⟨t, ht⟩ := exec_completes hmap hrom hrefuse
  exact ⟨t, ht, exec_pc ht⟩

end Sys2Proof.Proofs

/-! # The debugger (`48_breakpoint_engine.md`) and the invariants of a step (`10_state.md` R28 to R31) -/

namespace Sys2Proof.Machine

open Sys2Proof Sys2Proof.Claims

/-! ### Changes of the host's side leave the platform -/

theorem SamePlatform.refl (s : State) : SamePlatform s s := .of_eq rfl rfl rfl rfl
theorem SamePlatform.setRun (s : State) (r : RunState) : SamePlatform s (s.setRun r) := .of_eq rfl rfl rfl rfl
theorem SamePlatform.setDbg (s : State) (d : Dbg) : SamePlatform s (s.setDbg d) := .of_eq rfl rfl rfl rfl
theorem SamePlatform.emit (s : State) (o : Output) : SamePlatform s (s.emit o) := .of_eq rfl rfl rfl rfl
theorem SamePlatform.agenda (s : State) (l : List Move) : SamePlatform s { s with agenda := l } :=
  .of_eq rfl rfl rfl rfl
theorem SamePlatform.commands (s : State) (l : List Text) : SamePlatform s { s with commands := l } :=
  .of_eq rfl rfl rfl rfl

/-! ### Commands change the debugger, the trace, the halt slot and devices read from (`48_breakpoint_engine.md` R282) -/

/-- The state a line leaves, where no read was fatal. -/
def CommandResult.state? : CommandResult → Option State
  | .stay t | .release t | .halt t => some t
  | .fault _ => none

theorem CommandResult.state?_eq_some_iff {r : CommandResult} {t : State} :
    r.state? = some t ↔ r = .stay t ∨ r = .release t ∨ r = .halt t := by
  cases r <;> simp [state?]

theorem sameMachine_refl (s : State) : SameMachine s s := ⟨rfl, rfl, rfl, rfl, rfl, rfl, rfl⟩

theorem sameMachine_of_sameCpu {s t : State} (h : SameCpu s t) (hm : t.mem = s.mem) : SameMachine s t :=
  ⟨h.pc, h.a, h.x, h.y, h.sp, h.flags, hm⟩

theorem State.placeHalt_eq (s : State) (k : Int) :
    s.placeHalt k = { s with haltStatus := some (s.haltStatus.getD k) } := by
  obtain ⟨_, _, _, _, _, _, _, h, _, _, _, _, _, _, _, _⟩ := s
  cases h <;> rfl

theorem runCommand_keeps {i : Instr} {c : Command} {s t : State} (h : (runCommand i c s).state? = some t) :
    SameMachine s t ∧ SamePlatform s t := by
  cases c <;> simp only [runCommand] at h
  case read n a =>
    cases hr : readLittleEndian n a s with
    | fault e u => rw [hr] at h; cases h
    | ok v u =>
      rw [hr] at h
      cases h
      obtain ⟨hkept, hcpu, hmem⟩ := readLittleEndian_keeps hr
      have hmachine : SameMachine s u := sameMachine_of_sameCpu hcpu hmem
      exact ⟨hmachine, .trans (.of_kept hkept) (.emit u _)⟩
  case exit =>
    rw [State.placeHalt_eq] at h
    cases h
    exact ⟨sameMachine_refl s, .of_eq rfl rfl rfl rfl⟩
  all_goals
    cases h
    exact ⟨sameMachine_refl s, .of_eq rfl rfl rfl rfl⟩

/-- A line is a command after the debugger has remembered it, or nothing. -/
theorem takeLine_keeps {i : Instr} {line : Text} {s t : State} (h : (takeLine i line s).state? = some t) :
    SameMachine s t ∧ SamePlatform s t := by
  unfold takeLine at h
  cases hl : effectiveLine s line with
  | none => rw [hl] at h; cases h; exact ⟨sameMachine_refl s, .of_eq rfl rfl rfl rfl⟩
  | some l =>
    rw [hl] at h
    obtain ⟨hmachine, hplatform⟩ := runCommand_keeps h
    exact ⟨hmachine, .trans (.setDbg s _) hplatform⟩

/-! ### What no step changes -/

theorem samePlatform_afterHook {i : Instr} {ms : List Monitor} {s t : State}
    (h : afterHook i (runHooks i ms s) = .next t) : SamePlatform s t := by
  have hk := runHooks_keeps i ms s
  cases hr : runHooks i ms s with
  | go u => rw [hr] at h hk; exact SamePlatform.trans hk (.of_kept (exec_effect h).kept)
  | pause u => rw [hr] at h hk; cases h; exact hk

theorem cpuStep_keeps {s t : State} (h : cpuStep s = .next t) : SamePlatform s t := by
  unfold cpuStep at h
  cases hf : fetch s with
  | fault f => rw [hf] at h; cases h
  | ok i u =>
    rw [hf] at h
    obtain ⟨hkept, -, -⟩ := fetch_keeps hf
    exact .trans (.of_kept hkept) (samePlatform_afterHook h)

theorem pausedStep_keeps {i : Instr} {rest : List Monitor} {ex : Bool} {s t : State}
    (h : pausedStep i rest ex s = .next t) : SamePlatform s t := by
  unfold pausedStep at h
  cases hc : s.commands with
  | nil => rw [hc] at h; cases h; exact .refl s
  | cons line lines =>
    rw [hc] at h
    dsimp only at h
    refine .trans (.commands s lines) ?_
    have hline : ∀ u, (takeLine i line { s with commands := lines }).state? = some u →
        SamePlatform { s with commands := lines } (u.setRun .running) := fun u hu =>
      .trans (takeLine_keeps hu).2 (.setRun u _)
    cases hl : takeLine i line { s with commands := lines } with
    | stay u => rw [hl] at h; cases h; exact (takeLine_keeps (by rw [hl]; rfl)).2
    | fault f => rw [hl] at h; cases h
    | halt u => rw [hl] at h; exact .trans (hline u (by rw [hl]; rfl)) (afterExit_keeps h)
    | release u =>
      rw [hl] at h
      refine .trans (hline u (by rw [hl]; rfl)) ?_
      cases ex with
      | false => exact samePlatform_afterHook h
      | true => exact afterExit_keeps h

theorem cpuMove_keeps {s t : State} (h : cpuMove s = .next t) : SamePlatform s t := by
  unfold cpuMove at h
  split at h
  · split at h
    · cases h; exact .setRun s _
    · exact cpuStep_keeps h
  · exact pausedStep_keeps h
  · cases h; exact .refl s
  · cases h

theorem signalHalt_eq {k : Int} (hk : k ≠ 0) (s : State) :
    s.signalHalt k = { s with haltStatus := some (s.haltStatus.getD k) } := by
  rw [State.signalHalt, if_neg hk, State.placeHalt_eq]

theorem signalHalt_keeps (s : State) (k : Int) : SamePlatform s (s.signalHalt k) := by
  by_cases hk : k = 0
  · rw [State.signalHalt, if_pos hk]; exact .refl s
  · rw [signalHalt_eq hk]; exact .of_eq rfl rfl rfl rfl

theorem receiveAt_of_acia {s : State} {a : Addr} {b : Binding} {d : Acia} (v : Byte) (hp : s.params.aciaRxPush = true)
    (hf : findBinding s.bus a = some b) (hd : b.device = .acia d) :
    s.receiveAt a v = s.setBus (replaceDevice a (.acia (d.receive v)) s.bus) := by
  obtain ⟨name, base, device⟩ := b
  cases hd
  rw [State.receiveAt, if_pos hp, hf]

theorem receiveAt_keeps (s : State) (a : Addr) (v : Byte) : SamePlatform s (s.receiveAt a v) := by
  unfold State.receiveAt
  split
  · split
    case h_1 name base d hf => exact .of_kept (.setDevice hf rfl rfl)
    case h_2 => exact .refl s
  · exact .refl s

/-- What no step changes of the platform. -/
theorem step_keeps {s t : State} (h : step s = .next t) : SamePlatform s t := by
  have hagenda : agendaMove s = .next t → SamePlatform s t := fun h => by
    unfold agendaMove at h
    split at h
    case h_1 => exact cpuMove_keeps h
    case h_2 rest _ => exact .trans (.agenda s rest) (cpuMove_keeps h)
    case h_3 k rest _ => cases h; exact .trans (.agenda s rest) (signalHalt_keeps _ k)
    case h_4 a v rest _ =>
      split at h
      · cases h; exact .trans (.agenda s rest) (receiveAt_keeps _ a v)
      · exact cpuMove_keeps h
  unfold step machineStep at h
  split at h
  · cases h; exact .refl s
  · cases h
  · exact hagenda h
  · exact hagenda h

end Sys2Proof.Machine

namespace Sys2Proof.Proofs

open Sys2Proof Sys2Proof.Machine Sys2Proof.Claims

/-- Settles O10: a step keeps the canonical form of memory and the layout of the bindings (`step_keeps`), on which alone
the tests of ranges depend. -/
theorem stepKeepsInvariant : Obligations.StepKeepsInvariant := by
  rintro s t ⟨hmem, hdisjoint, hrange⟩ h
  obtain ⟨-, -, hlayout, hcanonical, -⟩ := step_keeps h
  exact ⟨hcanonical hmem, by rwa [busDisjoint_eq_of_layout hlayout], by rwa [busInRange_eq_of_layout hlayout]⟩

/-- Settles O12: parameters, monitors, layout and ROM bytes are part of what a step keeps (`step_keeps`). -/
theorem stepKeepsConfiguration : Obligations.StepKeepsConfiguration := by
  intro s t h
  obtain ⟨hparams, hmonitors, hlayout, -, hrom⟩ := step_keeps h
  exact ⟨hparams, hmonitors, hlayout, hrom⟩

/-- Settles O55: every command leaves the CPU, the memory and the platform (`takeLine_keeps`). -/
theorem debuggerChangesNoCpu : Obligations.DebuggerChangesNoCpu := by
  intro i line s t h
  obtain ⟨hmachine, hparams, hmonitors, hlayout, -, -⟩ := takeLine_keeps (CommandResult.state?_eq_some_iff.mpr h)
  exact ⟨hmachine, hlayout, hparams, hmonitors⟩

end Sys2Proof.Proofs

/-! # The host between steps: agenda, halt channel, pauses, hooks and commands (`48_breakpoint_engine.md`,
`60_exceptions.md` R300, `46_acia.md` R226) -/

namespace Sys2Proof.Machine

open Sys2Proof Sys2Proof.Claims

/-! ### A step by the run state and the agenda (`10_state.md` R28, R29; log entries 10, 11) -/

section
variable {s : State}

theorem step_of_halted {k : Int} (h : s.run = .halted k) : step s = .next s := by simp only [step, machineStep, h]

theorem step_of_faulted {f : Fault} (h : s.run = .faulted f) : step s = .fault f := by simp only [step, machineStep, h]

theorem step_of_running (h : s.run = .running) : step s = agendaMove s := by simp only [step, machineStep, h]

variable {i : Instr} {rest : List Monitor} {ex : Bool}

theorem step_of_paused (h : s.run = .paused i rest ex) : step s = agendaMove s := by simp only [step, machineStep, h]

theorem agendaMove_of_halt {k : Int} {moves : List Move} (h : s.agenda = .halt k :: moves) (hk : k ≠ 0) :
    agendaMove s = .next { s with agenda := moves, haltStatus := some (s.haltStatus.getD k) } := by
  simp only [agendaMove, h, signalHalt_eq hk]

theorem step_of_paused_of_no_move (h : s.run = .paused i rest ex) (ha : s.agenda = []) :
    step s = pausedStep i rest ex s := by
  simp only [step_of_paused h, agendaMove, ha, cpuMove, h]

theorem step_of_haltStatus {k : Int} (h : s.run = .running) (ha : s.agenda = []) (hk : s.haltStatus = some k) :
    step s = .next (s.setRun (.halted k)) := by
  simp only [step_of_running h, agendaMove, ha, cpuMove, h, hk]

theorem step_of_receive {a : Addr} {v : Byte} {moves : List Move} (h : s.run = .running)
    (ha : s.agenda = .receive a v :: moves) : step s = .next ({ s with agenda := moves }.receiveAt a v) := by
  simp only [step_of_running h, agendaMove, ha, betweenSteps, h, if_true]

end

/-! ### The paused machine (`48_breakpoint_engine.md` R265, `30_encoding.md` R80) -/

theorem pausedStep_of_no_line {i : Instr} {rest : List Monitor} {ex : Bool} {s : State} (h : s.commands = []) :
    pausedStep i rest ex s = .next s := by simp only [pausedStep, h]

section
variable {i : Instr} {rest : List Monitor} {ex : Bool} {s t : State} {line : Text} {lines : List Text}
  (hc : s.commands = line :: lines)
include hc

theorem pausedStep_of_stay (h : takeLine i line { s with commands := lines } = .stay t) :
    pausedStep i rest ex s = .next t := by simp only [pausedStep, hc, h]

theorem pausedStep_of_fault {f : Fault} (h : takeLine i line { s with commands := lines } = .fault f) :
    pausedStep i rest ex s = .fault f := by simp only [pausedStep, hc, h]

theorem pausedStep_of_release (h : takeLine i line { s with commands := lines } = .release t) :
    pausedStep i rest ex s = leaveHooks ex i (runHooks i rest (t.setRun .running)) := by simp only [pausedStep, hc, h]

theorem pausedStep_of_halt (h : takeLine i line { s with commands := lines } = .halt t) :
    pausedStep i rest ex s = leaveHooks true i (runHooks i rest (t.setRun .running)) := by
  simp only [pausedStep, hc, h]; rfl

end

/-- What follows DBG's hook is that the later monitors are called and then the instruction runs or the machine halts. -/
theorem afterDbg_leaveHooks (ex : Bool) (i : Instr) (rest : List Monitor) (t : State) :
    AfterDbg ex i rest t (leaveHooks ex i (runHooks i rest (t.setRun .running))) := by
  refine ⟨fun u hu => ?_, fun u hu => ?_⟩
  · rw [State.setRun, hu]; cases ex <;> rfl
  · obtain ⟨rest', hrun⟩ := runHooks_pause_run hu
    refine ⟨rest', hrun, ?_⟩
    rw [State.setRun, hu]
    cases ex with
    | false => rw [← hrun]; rfl
    | true => exact congrArg Host.Outcome.next (State.rememberExit_of_paused hrun)

/-! ### Lines (`48_breakpoint_engine.md` R270) -/

section
variable (i : Instr) {line : Text} (s : State)

theorem takeLine_of_tokens (h : tokens line ≠ []) :
    takeLine i line s =
      runCommand i (parseCommand s.params s.pc line) { s with dbg := { s.dbg with lastCommand := some line } } := by
  simp only [takeLine, effectiveLine, if_neg h]; rfl

theorem takeLine_of_empty_of_none (h : tokens line = []) (hl : s.dbg.lastCommand = none) :
    takeLine i line s = .stay s := by
  simp only [takeLine, effectiveLine, if_pos h, hl]

end

/-- An `exit` line with no other DBG to be called: the machine halts with 0 or the value that stood on the channel. -/
theorem pausedStep_of_exit {i : Instr} {rest : List Monitor} {ex : Bool} {s : State} {line : Text} {lines : List Text}
    (hc : s.commands = line :: lines) (ht : tokens line ≠ []) (hp : parseCommand s.params s.pc line = .exit)
    (hm : .dbg ∉ rest) :
    ∃ shown, pausedStep i rest ex s = .next
      { s with
        commands := lines
        dbg := { s.dbg with lastCommand := some line }
        run := .halted (s.haltStatus.getD 0)
        haltStatus := some (s.haltStatus.getD 0)
        trace := shown } := by
  have hline := takeLine_of_tokens i { s with commands := lines } ht
  rw [show parseCommand _ _ line = .exit from hp, runCommand, State.placeHalt_eq] at hline
  obtain ⟨shown, hgo⟩ := runHooks_observers i hm _
  exact ⟨shown, by rw [pausedStep_of_halt hc hline, hgo]; rfl⟩

/-! ### The hook (`48_breakpoint_engine.md` R262 to R265) -/

theorem notices_eq_expectedNotices (i : Instr) (s : State) : notices i s = expectedNotices i s := by
  simp only [notices, expectedNotices, addressHit, instructionHit, RegisterTrigger.hit, Bool.and_eq_true, beq_iff_eq]

theorem notices_eq_nil_iff (i : Instr) (s : State) : notices i s = [] ↔ triggerHit i s = false := by
  unfold notices triggerHit
  simp only [List.append_eq_nil_iff, Bool.or_eq_false_iff, ite_eq_right_iff, List.cons_ne_nil, imp_false,
    Bool.not_eq_true]

/-- With no match the evaluation changes nothing. -/
theorem evaluate_of_no_hit {i : Instr} {s : State} (h : triggerHit i s = false) : evaluate i s = s := by
  have hn := (notices_eq_nil_iff i s).mpr h
  have ha : addressHit s = false := by simp [triggerHit] at h; exact h.1.1.1.1
  simp [evaluate, hn, h, ha]

theorem evaluate_freeRun (i : Instr) (s : State) : (evaluate i s).dbg.freeRun = (s.dbg.freeRun && !triggerHit i s) :=
  rfl

/-- A one-shot address trigger that matches is disabled. -/
theorem evaluate_address_enabled (s : State) :
    (s.dbg.bpAddr.enabled && !(addressHit s && s.dbg.bpAddr.oneShot)) =
      (s.dbg.bpAddr.enabled && !(decide (s.pc = s.dbg.bpAddr.value) && s.dbg.bpAddr.oneShot)) := by
  unfold addressHit
  cases s.dbg.bpAddr.enabled
  · rfl
  · simp [beq_eq_decide]

theorem runHooks_dbg (i : Instr) (rest : List Monitor) (s : State) :
    runHooks i (.dbg :: rest) s = if (evaluate i s).dbg.freeRun then runHooks i rest (evaluate i s) else
      .pause (((evaluate i s).emit (pauseDisplay i (evaluate i s))).setRun (.paused i rest false)) := rfl

/-! ### Debugger reads (`48_breakpoint_engine.md` R278) -/

theorem Res.bind_assoc {α β γ : Type} (r : Res α) (k : α → State → Res β) (l : β → State → Res γ) :
    (r.bind k).bind l = r.bind fun v s => (k v s).bind l := by
  cases r <;> rfl

section
variable (a : Addr) (s : State)

theorem readLittleEndian_one : readLittleEndian 1 a s = (busRead a s).bind fun v t => .ok v.toNat t := rfl

theorem readLittleEndian_two :
    readLittleEndian 2 a s =
      (busRead a s).bind fun v0 t0 => (busRead (BitVec.ofNat 16 (a.toNat + 1)) t0).bind fun v1 t1 =>
        .ok (v0.toNat + 256 * v1.toNat) t1 := by
  rw [← addr_add_ofNat]
  simp only [readLittleEndian, Res.bind_assoc, Res.bind_ok, Nat.mul_zero, Nat.add_zero]

theorem readLittleEndian_four :
    readLittleEndian 4 a s =
      (busRead a s).bind fun v0 t0 => (busRead (BitVec.ofNat 16 (a.toNat + 1)) t0).bind fun v1 t1 =>
        (busRead (BitVec.ofNat 16 (a.toNat + 2)) t1).bind fun v2 t2 =>
          (busRead (BitVec.ofNat 16 (a.toNat + 3)) t2).bind fun v3 t3 =>
            .ok (v0.toNat + 256 * v1.toNat + 65536 * v2.toNat + 16777216 * v3.toNat) t3 := by
  have h2 : a + BitVec.ofNat 16 2 = a + 1#16 + 1#16 := by rw [BitVec.add_assoc]; rfl
  have h3 : a + BitVec.ofNat 16 3 = a + 1#16 + 1#16 + 1#16 := by rw [BitVec.add_assoc, BitVec.add_assoc]; rfl
  have hsum : ∀ v0 v1 v2 v3 : Nat, v0 + 256 * (v1 + 256 * (v2 + 256 * v3)) =
      v0 + 256 * v1 + 65536 * v2 + 16777216 * v3 := by omega
  rw [← addr_add_ofNat, ← addr_add_ofNat, ← addr_add_ofNat, h2, h3]
  simp only [readLittleEndian, Res.bind_assoc, Res.bind_ok, Nat.mul_zero, Nat.add_zero, hsum]

end

section
variable (i : Instr) {n : Nat} {a : Addr} {s t : State}

theorem runCommand_read_ok {v : Nat} (h : readLittleEndian n a s = .ok v t) :
    runCommand i (.read n a) s = .stay (t.emit (.readResult n a v)) := by simp only [runCommand, h]

theorem runCommand_read_fault {e : BusError} (h : readLittleEndian n a s = .fault e t) :
    runCommand i (.read n a) s = .fault (e.toFault ⟨some s.pc, some i.opcode⟩) := by simp only [runCommand, h]; rfl

end

end Sys2Proof.Machine

namespace Sys2Proof.Proofs

open Sys2Proof Sys2Proof.Machine Sys2Proof.Claims

/-- Settles O49: the head of the agenda is the receive event, which replaces the ACIA that its address finds. -/
theorem aciaReceive : Obligations.AciaReceive := by
  intro s a v rest b d hrun hagenda hf hd
  rw [step_of_receive hrun hagenda]
  refine ⟨fun hp => ?_, fun hp => ⟨_, rfl, ?_⟩⟩
  · rw [State.receiveAt, if_neg (by rw [hp]; decide)]
  · rw [receiveAt_of_acia (s := { s with agenda := rest }) v hp hf hd]
    exact replacesDevice_setBus hf (by rw [hd]; rfl)

/-- Settles O57: each clause is a step by the run state and the head of the agenda. -/
theorem haltChannel : Obligations.HaltChannel := by
  refine fun s => ⟨fun k hr ha hk => step_of_haltStatus hr ha hk, fun k moves hr ha hk => ?_,
    fun i rest ex k moves hr ha hk => ?_, fun i rest ex k hr _ ha hc => ?_, fun k hr => step_of_halted hr,
    fun f hr => step_of_faulted hr⟩
  · rw [step_of_running hr, agendaMove_of_halt ha hk]
  · rw [step_of_paused hr, agendaMove_of_halt ha hk]
  · rw [step_of_paused_of_no_move hr ha, pausedStep_of_no_line hc]

/-- Settles O52: without a match the evaluation changes nothing; a match or a clear free-run leaves free-run clear, and
the hook pauses. -/
theorem hookRule : Obligations.HookRule := by
  intro i rest s
  rw [← notices_eq_expectedNotices, notices_eq_nil_iff, runHooks_dbg]
  refine ⟨fun ⟨hn, hf⟩ => ?_, fun h => ?_⟩
  · rw [evaluate_of_no_hit hn, hf]; rfl
  · have hfree : (evaluate i s).dbg.freeRun = false := by
      rw [evaluate_freeRun]
      cases ht : triggerHit i s <;> simp_all
    rw [hfree]
    refine ⟨_, pauseDisplay i (evaluate i s), rfl, rfl, sameMachine_refl s, rfl, rfl, ?_⟩
    rw [← hfree, ← evaluate_address_enabled]; rfl

/-- Settles O53: each command is one change of the debugger or the halt slot; a read is its bus reads in order. -/
theorem commandEffects : Obligations.CommandEffects := by
  refine ⟨fun i s => ⟨fun _ => rfl, fun _ => rfl, fun _ => rfl, fun _ => rfl, fun _ => rfl, ?_, rfl, rfl, fun h => ?_,
    fun k h => ?_, ⟨_, rfl⟩, fun e => ⟨_, rfl⟩⟩, fun i a s t0 t1 t2 t3 v0 v1 v2 v3 h0 => ?_, fun i a s e f hf => ?_⟩
  · rw [runCommand, nextPc_eq_after]; rfl
  · rw [runCommand, State.placeHalt_eq, h]; rfl
  · rw [runCommand, State.placeHalt_eq, h, Option.getD_some, ← h]
  · refine ⟨runCommand_read_ok i (by rw [readLittleEndian_one, h0, Res.bind_ok]), fun h1 =>
      ⟨runCommand_read_ok i (by rw [readLittleEndian_two, h0, Res.bind_ok, h1, Res.bind_ok]), fun h2 h3 =>
        runCommand_read_ok i (by
          rw [readLittleEndian_four, h0, Res.bind_ok, h1, Res.bind_ok, h2, Res.bind_ok, h3, Res.bind_ok])⟩⟩
  · subst hf
    refine ⟨fun t h => ⟨?_, ?_, ?_⟩, fun v0 t0 t h0 h => ⟨?_, ?_⟩, fun v0 t0 v1 t1 t h0 h1 h => ?_,
      fun v0 t0 v1 t1 v2 t2 t h0 h1 h2 h => ?_⟩
    · exact runCommand_read_fault i (by rw [readLittleEndian_one, h, Res.bind_fault])
    · exact runCommand_read_fault i (by rw [readLittleEndian_two, h, Res.bind_fault])
    · exact runCommand_read_fault i (by rw [readLittleEndian_four, h, Res.bind_fault])
    · exact runCommand_read_fault i (by rw [readLittleEndian_two, h0, Res.bind_ok, h, Res.bind_fault])
    · exact runCommand_read_fault i (by rw [readLittleEndian_four, h0, Res.bind_ok, h, Res.bind_fault])
    · exact runCommand_read_fault i (by
        rw [readLittleEndian_four, h0, Res.bind_ok, h1, Res.bind_ok, h, Res.bind_fault])
    · exact runCommand_read_fault i (by
        rw [readLittleEndian_four, h0, Res.bind_ok, h1, Res.bind_ok, h2, Res.bind_ok, h, Res.bind_fault])

/-- Settles O56: a paused step with no move before it is `pausedStep`, by what its line leaves. -/
theorem pausedMachine : Obligations.PausedMachine := by
  intro s i rest ex hrun hagenda
  rw [step_of_paused_of_no_move hrun hagenda]
  refine ⟨pausedStep_of_no_line, fun line lines hc => ⟨fun t h => pausedStep_of_stay hc h, fun t h => ?_, fun t h => ?_,
    fun f h => pausedStep_of_fault hc h, fun ht hp hm => ?_⟩⟩
  · rw [pausedStep_of_release hc h]; exact afterDbg_leaveHooks ex i rest t
  · rw [pausedStep_of_halt hc h]; exact afterDbg_leaveHooks true i rest t
  · obtain ⟨shown, hnext⟩ := pausedStep_of_exit (i := i) (ex := ex) hc ht hp hm
    exact ⟨_, hnext, rfl, rfl, sameMachine_refl s, rfl⟩

end Sys2Proof.Proofs

/-! # Round trips of the stack (`44_control_flow.md` R183, R184, R193, R194) -/

namespace Sys2Proof.Machine

open Sys2Proof Sys2Proof.Claims

/-! ### Words and traps on a stack in RAM -/

section
variable {s : State} (h0 : kindAt s (stackSlot s 0#8) = some .ram) (h1 : kindAt s (stackSlot s 1#8) = some .ram)
include h0 h1

/-- A word pushed on RAM stands in the two slots, its high byte in the upper one. -/
theorem pushWord_on_ram (w : Addr) :
    ∃ t, pushWord w s = .ok () t ∧ SameOutside s t ∧ t.sp = s.sp - 2#8 ∧ t.flags = s.flags ∧
      t.mem.read (stackSlot s 0#8) = hi w ∧ t.mem.read (stackSlot s 1#8) = lo w := by
  obtain ⟨t, e1, o1, p1, f1, m1, -⟩ := push_on_ram (hi w) h0 ⟨rfl, rfl, rfl, rfl, rfl⟩ (by simp)
  obtain ⟨u, e2, o2, p2, f2, m2, l2⟩ := push_on_ram (lo w) h1 o1 p1
  exact ⟨u, by rw [pushWord, e1, Res.bind_ok, e2], o2, p2, f2.trans f1, (l2 _ (by decide)).trans m1, m2⟩

/-- A word pulled from those slots, by a state that differs from `s` in `PC`, `SP`, flags and memory. -/
theorem pullWord_from_ram {u : State} (o : SameOutside s u) (hs : u.sp = s.sp - 2#8) :
    ∃ t, pullWord u = .ok (word (u.mem.read (stackSlot s 0#8)) (u.mem.read (stackSlot s 1#8))) t ∧
      SameOutside s t ∧ t.sp = s.sp ∧ t.flags = u.flags := by
  obtain ⟨t, e1, o1, p1, f1, m1⟩ := pull_from_ram h1 o hs
  obtain ⟨v, e2, o2, p2, f2, -⟩ := pull_from_ram h0 o1 p1
  exact ⟨v, by rw [pullWord, e1, Res.bind_ok, e2, Res.bind_ok, m1], o2, by rw [p2, BitVec.sub_zero], f2.trans f1⟩

variable (h2 : kindAt s (stackSlot s 2#8) = some .ram)
include h2

/-- A trap taken on RAM leaves the return address and the status byte in the three slots and sets `I`. -/
theorem takeTrap_on_ram {vector : Addr} (ret : Addr) (hv : plain s vector) (hv1 : plain s (vector + 1#16)) :
    ∃ t, takeTrap vector ret s = .ok () t ∧ SameOutside s t ∧ t.sp = s.sp - 3#8 ∧
      t.flags = { s.flags with i := true } ∧ t.mem.read (stackSlot s 0#8) = hi ret ∧
      t.mem.read (stackSlot s 1#8) = lo ret ∧ t.mem.read (stackSlot s 2#8) = s.flags.pushed := by
  obtain ⟨t, e1, o1, p1, f1, m0, m1⟩ := pushWord_on_ram h0 h1 ret
  obtain ⟨u, e2, o2, p2, f2, m2, l2⟩ := push_on_ram s.flags.pushed h2 o1 p1
  have hread : ∀ {a}, plain s a → busRead a (u.setFlags { s.flags with i := true }) =
      .ok (u.mem.read a) (u.setFlags { s.flags with i := true }) := fun ha => busRead_plain (plain_of_bus_eq o2.bus ha)
  refine ⟨(u.setFlags { s.flags with i := true }).setPc (word (u.mem.read (vector + 1#16)) (u.mem.read vector)), ?_,
    ⟨o2.bus, o2.params, o2.a, o2.x, o2.y⟩, p2, rfl, (l2 _ (by decide)).trans m0, (l2 _ (by decide)).trans m1, m2⟩
  rw [takeTrap_of_push_ok e1 e2, memRead16]
  exact by rw [show ({ u with flags := { s.flags with i := true } } : State) = u.setFlags _ from rfl, hread hv,
    Res.bind_ok, hread hv1, Res.bind_ok]; rfl

/-- The return from a trap whose bytes stand in those slots. -/
theorem returnFromTrap_from_ram {u : State} (o : SameOutside s u) (hs : u.sp = s.sp - 3#8) :
    ∃ t, returnFromTrap u = .ok () t ∧
      t.pc = word (u.mem.read (stackSlot s 0#8)) (u.mem.read (stackSlot s 1#8)) ∧
      t.flags = Flags.ofByte (u.mem.read (stackSlot s 2#8)) ∧ SameOutside s t ∧ t.sp = s.sp := by
  obtain ⟨t, e1, o1, p1, -, m1⟩ := pull_from_ram h2 o hs
  obtain ⟨v, e2, o2, p2, f2⟩ := pullWord_from_ram h0 h1
    (u := t.setFlags (Flags.ofByte (u.mem.read (stackSlot s 2#8)))) ⟨o1.bus, o1.params, o1.a, o1.x, o1.y⟩ p1
  rw [State.setFlags_mem, m1] at e2
  exact ⟨v.setPc (word (u.mem.read (stackSlot s 0#8)) (u.mem.read (stackSlot s 1#8))),
    by rw [returnFromTrap, e1, Res.bind_ok, e2, Res.bind_ok], rfl, f2, ⟨o2.bus, o2.params, o2.a, o2.x, o2.y⟩, p2⟩

end

end Sys2Proof.Machine

namespace Sys2Proof.Proofs

open Sys2Proof Sys2Proof.Machine Sys2Proof.Claims

/-- Settles O37: the trap leaves the return address and the status in three slots of the stack (`takeTrap_on_ram`),
which the return takes back (`returnFromTrap_from_ram`). -/
theorem trapReturns : Obligations.TrapReturns := by
  intro s h0 h1 h2 hv hv1
  obtain ⟨t, ht, ot, pt, ft, m0, m1, m2⟩ := takeTrap_on_ram h0 h1 h2 (after s 2) hv hv1
  obtain ⟨u, hu, hpc, fu, ou, pu⟩ := returnFromTrap_from_ram h0 h1 h2 ot pt
  refine ⟨t, u, exec_of_control_ok (exec_brk s) ((brk_eq_takeTrap s).trans ht), ft,
    exec_of_control_ok (exec_rti t) hu, ?_, ?_, pu, ou.a, ou.x, ou.y⟩
  · rw [hpc, m0, m1, word_hi_lo]
  · rw [fu, m2, ofByte_pushed]

/-- Settles O38: the call leaves the address of its last byte in two slots of the stack (`pushWord_on_ram`), which the
return takes back (`pullWord_from_ram`), going one past it. -/
theorem callReturns : Obligations.CallReturns := by
  intro s target h0 h1
  obtain ⟨t, ht, ot, pt, ft, m0, m1⟩ := pushWord_on_ram h0 h1 (after s 2)
  obtain ⟨u, hu, ou, pu, fu⟩ := pullWord_from_ram h0 h1 (u := t.setPc target) ⟨ot.bus, ot.params, ot.a, ot.x, ot.y⟩ pt
  rw [State.setPc_mem, m0, m1, word_hi_lo] at hu
  refine ⟨t.setPc target, u.setPc (after s 2 + 1#16), ?_, rfl, ?_, ?_, fu.trans ft, pu, ou.a, ou.x, ou.y⟩
  · exact exec_of_control_ok (exec_jsr target s) (by rw [jsr_eq_pushWord, ht, Res.bind_ok])
  · exact exec_of_control_ok (exec_rts _) (by rw [rts_eq_pullWord, hu, Res.bind_ok])
  · exact (BitVec.ofNat_add (s.pc.toNat + 2) 1).symm

end Sys2Proof.Proofs

/-! # The bus (`20_memory.md`) -/

namespace Sys2Proof.Machine

open Sys2Proof Sys2Proof.Claims

/-! ### A transaction by the device that the address finds (`20_memory.md` R53 to R56; log entry 16) -/

section
variable {s : State} {a : Addr} {b : Binding} (hf : findBinding s.bus a = some b)
include hf

theorem busRead_of_spi {p : Spi} (hd : b.device = .spi p) : busRead a s = .ok (p.readPort s.params) s := by
  simp only [busRead, hf, hd]

theorem busRead_of_acia {d : Acia} (hd : b.device = .acia d) :
    busRead a s = .ok (d.read s.params (b.aciaRegister a)).1
      (s.setBus (replaceDevice a (.acia (d.read s.params (b.aciaRegister a)).2) s.bus)) := by
  simp only [busRead, hf, hd]

theorem busRead_of_bridge {g : SpiBridge} (hd : b.device = .bridge g) :
    busRead a s = .ok (g.access s.params (a.toNat - b.base.toNat) none).1
      (s.setBus (replaceDevice a (.bridge (g.access s.params (a.toNat - b.base.toNat) none).2) s.bus)) := by
  simp only [busRead, hf, hd]

theorem busWrite_of_spi {p : Spi} (v : Byte) (hd : b.device = .spi p) :
    busWrite a v s = .ok () (s.setBus (replaceDevice a (.spi (p.write s.params v).2) s.bus)) := by
  simp only [busWrite, hf, hd]

theorem busWrite_of_bridge {g : SpiBridge} (v : Byte) (hd : b.device = .bridge g) :
    busWrite a v s = .ok () (s.setBus
      (replaceDevice a (.bridge (g.access s.params (a.toNat - b.base.toNat) (some v)).2) s.bus)) := by
  simp only [busWrite, hf, hd]

theorem kindAt_of_findBinding : kindAt s a = some b.device.kind := by rw [kindAt, hf]; rfl

end

section
variable {s : State} {a : Addr} (h : findBinding s.bus a = none)
include h

theorem busRead_of_unmapped : busRead a s = .fault (.unmapped a .read) s := by simp only [busRead, h]

theorem busWrite_of_unmapped (v : Byte) : busWrite a v s = .fault (.unmapped a .write) s := by simp only [busWrite, h]

end

section
variable {s : State} {a : Addr} (v : Byte) (h : kindAt s a = some .rom)
include h

/-- A ROM address finds a ROM device. -/
theorem rom_of_kindAt : ∃ b n, findBinding s.bus a = some b ∧ b.device = .rom n := by
  obtain ⟨b, hb, hk⟩ := Option.map_eq_some_iff.mp h
  cases hd : b.device <;> rw [hd] at hk <;> cases hk
  exact ⟨b, _, hb, hd⟩

theorem busWrite_of_rom_fault (hr : s.params.romWrite = .fault) : busWrite a v s = .fault (.romWrite a v) s := by
  obtain ⟨b, n, hb, hd⟩ := rom_of_kindAt h
  simp only [busWrite, hb, hd, hr]

theorem busWrite_of_rom_ignore (hr : s.params.romWrite = .ignore) : busWrite a v s = .ok () s := by
  obtain ⟨b, n, hb, hd⟩ := rom_of_kindAt h
  simp only [busWrite, hb, hd, hr]

end

/-! ### `attach` (`20_memory.md` R52) -/

theorem Binding.overlaps_eq_true_iff (b c : Binding) :
    b.overlaps c = true ↔ b.base.toNat < c.base.toNat + c.size ∧ c.base.toNat < b.base.toNat + b.size := by
  simp [Binding.overlaps]

theorem Binding.overlaps_comm (b c : Binding) : b.overlaps c = c.overlaps b := Bool.and_comm _ _

/-- A binding that no binding of a disjoint table overlaps leaves the table disjoint. -/
theorem busDisjoint_append {bus : List Binding} {b : Binding} (hd : busDisjoint bus = true)
    (h : ∀ c ∈ bus, b.overlaps c = false) : busDisjoint (bus ++ [b]) = true := by
  induction bus with
  | nil => rfl
  | cons c rest ih =>
    simp only [busDisjoint, Bool.and_eq_true] at hd
    simp only [List.cons_append, busDisjoint, List.all_append, Bool.and_eq_true, List.all_cons, List.all_nil, and_true]
    exact ⟨⟨hd.1, by rw [Binding.overlaps_comm, h c (.head _)]; rfl⟩, ih hd.2 fun e he => h e (.tail _ he)⟩

section
variable {d : Device} {name : String} {base : Addr} {bus : List Binding}

theorem attach_of_bad_range (h : d.size = 0 ∨ 0x10000 < base.toNat + d.size) :
    attach d name base bus = .error (.configuration ⟨name, base, d⟩) := if_pos h

variable (h : ¬(d.size = 0 ∨ 0x10000 < base.toNat + d.size))
include h

theorem attach_of_overlap {c : Binding} (hc : bus.find? (fun c => Binding.overlaps ⟨name, base, d⟩ c) = some c) :
    attach d name base bus = .error (.overlap ⟨name, base, d⟩ c) :=
  (if_neg h).trans (by simp only [hc])

theorem attach_of_free (hc : bus.find? (fun c => Binding.overlaps ⟨name, base, d⟩ c) = none) :
    attach d name base bus = .ok (bus ++ [⟨name, base, d⟩]) :=
  (if_neg h).trans (by simp only [hc])

end

end Sys2Proof.Machine

namespace Sys2Proof.Proofs

open Sys2Proof Sys2Proof.Machine Sys2Proof.Claims

/-- Settles O42: with disjoint bindings the binding whose range holds the address is the one found
(`findBinding_of_disjoint`), and its device answers. -/
theorem busReadDispatch : Obligations.BusReadDispatch := by
  refine fun s a hd => ⟨fun b hb hlow hhigh => ?_, fun h => busRead_of_unmapped (findBinding_eq_none h)⟩
  have hf := findBinding_of_disjoint hd hb hlow hhigh
  refine ⟨fun n hn => busRead_storage ?_, fun p hp => busRead_of_spi hf hp, fun d r hd ha => ?_, fun g k hg ha => ?_⟩
  · rw [kindAt_of_findBinding hf]
    obtain hn | hn := hn
    · left; rw [hn]; rfl
    · right; rw [hn]; rfl
  · rw [busRead_of_acia hf hd, aciaRegister_of_offset ha]
    exact ⟨_, rfl, replacesDevice_setBus hf (by rw [hd]; rfl)⟩
  · rw [busRead_of_bridge hf hg, ha, Nat.add_sub_cancel_left]
    exact ⟨_, rfl, replacesDevice_setBus hf (by rw [hg]; rfl)⟩

/-- Settles O43: the same resolution; RAM takes the byte, every other device is left in its new state. -/
theorem busWriteDispatch : Obligations.BusWriteDispatch := by
  refine fun s a v hd => ⟨fun b hb hlow hhigh => ?_, fun h => busWrite_of_unmapped (findBinding_eq_none h) v⟩
  have hf := findBinding_of_disjoint hd hb hlow hhigh
  refine ⟨fun n hn => ?_, fun p hp => ?_, fun d r hd ha => ?_, fun g k hg ha => ?_⟩
  · rw [busWrite_ram (by rw [kindAt_of_findBinding hf, hn]; rfl)]
    exact ⟨_, rfl, rfl, Memory.read_write_same _ _ _, fun c hc => Memory.read_write_other _ _ hc⟩
  · rw [busWrite_of_spi hf v hp]
    exact ⟨_, rfl, replacesDevice_setBus hf (by rw [hp]; rfl)⟩
  · rw [busWrite_acia v hf hd, aciaRegister_of_offset ha]
    exact ⟨_, rfl, replacesDevice_setBus hf (by rw [hd]; rfl)⟩
  · rw [busWrite_of_bridge hf v hg, ha, Nat.add_sub_cancel_left]
    exact ⟨_, rfl, replacesDevice_setBus hf (by rw [hg]; rfl)⟩

/-- Settles O44: a ROM address reads its byte; its write is decided by `ROM_WRITE`. -/
theorem romWrites : Obligations.RomWrites :=
  fun _ _ v h => ⟨busRead_storage (.inr h), busWrite_of_rom_fault v h, busWrite_of_rom_ignore v h⟩

/-- Settles O45: `attach` tests the range, then looks for the first binding that it overlaps. -/
theorem attachRule : Obligations.AttachRule := by
  refine fun d name base bus => ⟨attach_of_bad_range, fun hsize hrange => ?_⟩
  have hgood : ¬(d.size = 0 ∨ 0x10000 < base.toNat + d.size) := by omega
  have hover := Binding.overlaps_eq_true_iff ⟨name, base, d⟩
  refine ⟨fun ⟨b, hb, h⟩ => ?_, fun h => ?_⟩
  · cases hc : bus.find? (fun c => Binding.overlaps ⟨name, base, d⟩ c) with
    | none => exact absurd ((hover b).mpr h) (List.find?_eq_none.mp hc b hb)
    | some c =>
      obtain ⟨h1, h2⟩ := (hover c).mp (List.find?_some hc)
      exact ⟨c, List.mem_of_find?_eq_some hc, h1, h2, attach_of_overlap hgood hc⟩
  · have hfree : ∀ c ∈ bus, ¬ Binding.overlaps ⟨name, base, d⟩ c = true := fun c hc ho => h c hc ((hover c).mp ho)
    exact ⟨attach_of_free hgood (List.find?_eq_none.mpr hfree),
      fun hd => busDisjoint_append hd fun c hc => Bool.eq_false_iff.mpr (hfree c hc)⟩

end Sys2Proof.Proofs

/-! # Decimal arithmetic (`42_arithmetic.md` R142 to R144) -/

namespace Sys2Proof.Machine

open Sys2Proof Sys2Proof.Claims

/-! ### The digits of a byte as numbers -/

theorem toNat_lowDigit (a : Byte) : (a &&& 0x0F#8).toNat = a.toNat % 16 := by
  rw [BitVec.toNat_and]; exact Nat.and_two_pow_sub_one_eq_mod a.toNat 4

theorem highDigit_eq_shifts (a : Byte) : a &&& 0xF0#8 = a >>> 4 <<< 4 := by
  ext k hk
  obtain rfl | rfl | rfl | rfl | rfl | rfl | rfl | rfl :
    k = 0 ∨ k = 1 ∨ k = 2 ∨ k = 3 ∨ k = 4 ∨ k = 5 ∨ k = 6 ∨ k = 7 := by omega
  all_goals simp

theorem toNat_highDigit (a : Byte) : (a &&& 0xF0#8).toNat = 16 * (a.toNat / 16) := by
  have := a.isLt
  rw [highDigit_eq_shifts, BitVec.toNat_shiftLeft, BitVec.toNat_ushiftRight, Nat.shiftLeft_eq,
    Nat.shiftRight_eq_div_pow]
  omega

theorem s8_highDigit (a : Byte) : s8 (a &&& 0xF0#8) = signed a - a.toNat % 16 := by
  rw [s8, ← signed_eq_toInt, signed, signed, toNat_highDigit]
  split <;> split <;> omega

theorem testBit_seven (n : Nat) : n.testBit 7 = decide (128 ≤ n % 256) := by
  rw [Nat.testBit_eq_decide_div_mod_eq]
  exact decide_eq_decide.mpr (by omega)

/-! ### The model's sums are those of the spec -/

theorem adcLowDigit_eq (f : Flags) (a m : Byte) : adcLowDigit f a m = adcLow f.c.toNat a.toNat m.toNat := by
  rw [adcLowDigit, toNat_lowDigit, toNat_lowDigit, adcLow]

/-- Decimal addition follows the formulas of R142 on every operand. -/
theorem addsDecimal_adcDecimal (f : Flags) (a m : Byte) :
    AddsDecimal f a m (adcDecimal f a m).1 (adcDecimal f a m).2 := by
  have hsum : (a &&& 0xF0#8).toNat + (m &&& 0xF0#8).toNat + adcLowDigit f a m = adcSum f.c.toNat a.toNat m.toNat := by
    rw [toNat_highDigit, toNat_highDigit, adcLowDigit_eq, adcSum]
  exact
    { result := by rw [adcDecimal, BitVec.toNat_ofNat, hsum]; rfl
      carry := by rw [adcDecimal, hsum]; rfl
      negative := by rw [adcDecimal, hsum]; exact testBit_seven _
      overflow := by rw [adcDecimal, s8_highDigit, s8_highDigit, adcLowDigit_eq]; exact (Bool.decide_or _ _).symm
      zero := rfl
      decimal := rfl
      disable := rfl }

/-- Decimal subtraction follows the formulas of R144 on every operand. -/
theorem toNat_sbcDecimal (f : Flags) (a m : Byte) :
    ((sbcDecimal f a m).toNat : Int) = sbcFinal f.c.toNat a.toNat m.toNat % 256 := by
  rw [sbcDecimal, BitVec.toNat_ofInt]
  simp only [toNat_lowDigit, toNat_highDigit]
  exact Int.toNat_of_nonneg (Int.emod_nonneg _ (by decide))

/-! ### Valid decimal operands -/

theorem bcd_le {v : Byte} (h : isBcd v) : bcd v ≤ 99 := by
  obtain ⟨hl, hh⟩ := h
  unfold bcd
  omega

section
variable {c : Nat} {a m : Byte} (hc : c ≤ 1) (ha : isBcd a) (hm : isBcd m)
include hc ha hm

/-- The corrected sum of two decimal numbers, digit by digit: its carry out of the byte is worth one hundred. -/
theorem adcFinal_digits :
    adcFinal c a.toNat m.toNat % 16 ≤ 9 ∧ adcFinal c a.toNat m.toNat % 256 / 16 ≤ 9 ∧
      bcd a + bcd m + c = 100 * (adcFinal c a.toNat m.toNat / 256) +
        10 * (adcFinal c a.toNat m.toNat % 256 / 16) + adcFinal c a.toNat m.toNat % 16 := by
  obtain ⟨hal, hah⟩ := ha
  obtain ⟨hml, hmh⟩ := hm
  simp only [bcd, adcFinal, adcSum, adcLow]
  split <;> split <;> omega

/-- The corrected difference of two decimal numbers, digit by digit: its borrow is worth one hundred. -/
theorem sbcFinal_digits :
    sbcFinal c a.toNat m.toNat % 16 ≤ 9 ∧ sbcFinal c a.toNat m.toNat % 256 / 16 ≤ 9 ∧
      (bcd a - bcd m + c - 1 : Int) = 100 * (sbcFinal c a.toNat m.toNat / 256) +
        10 * (sbcFinal c a.toNat m.toNat % 256 / 16) + sbcFinal c a.toNat m.toNat % 16 := by
  obtain ⟨hal, hah⟩ := ha
  obtain ⟨hml, hmh⟩ := hm
  simp only [bcd, sbcFinal, sbcDifference, sbcLow]
  split <;> split <;> omega

/-- The binary comparison of two decimal numbers is the decimal one. -/
theorem le_iff_bcd_le : m.toNat + 1 ≤ a.toNat + c ↔ bcd m + 1 ≤ bcd a + c := by
  obtain ⟨hal, hah⟩ := ha
  obtain ⟨hml, hmh⟩ := hm
  unfold bcd
  omega

end

end Sys2Proof.Machine

namespace Sys2Proof.Proofs

open Sys2Proof Sys2Proof.Machine Sys2Proof.Claims

/-- Settles O25: the model's formulas are those of the spec on every operand (`addsDecimal_adcDecimal`,
`toNat_sbcDecimal`); on decimal operands they are read digit by digit (`adcFinal_digits`, `sbcFinal_digits`). -/
theorem decimalFormulas : Obligations.DecimalFormulas := by
  refine ⟨fun f a m => ?_, fun f a m => ?_, fun s m hd => ?_⟩
  · have h := addsDecimal_adcDecimal f a m
    refine ⟨h, fun ha hm => ?_⟩
    obtain ⟨hl, hh, he⟩ := adcFinal_digits f.c.toNat_le ha hm
    unfold isBcd
    rw [h.carry, bcd, h.result, decide_eq_decide]
    omega
  · have h := toNat_sbcDecimal f a m
    refine ⟨h, fun ha hm => ?_⟩
    obtain ⟨hl, hh, he⟩ := sbcFinal_digits f.c.toNat_le ha hm
    have hb := bcd_le hm
    unfold isBcd
    rw [bcd]
    omega
  · have h := subtractsBinary_sbcBinary s m
    exact ⟨_, _, h, sbcResult_of_decimalOn hd m,
      fun ha hm => h.carry.trans (decide_eq_decide.mpr (le_iff_bcd_le s.flags.c.toNat_le ha hm))⟩

end Sys2Proof.Proofs

/-! # The SPI slave (`47_spi_slave.md`) -/

namespace Sys2Proof.Machine

open Sys2Proof Sys2Proof.Claims

/-! ### The port (R245, R254) -/

theorem bit_bitAt (on : Bool) (i k : Fin 8) : bit (bitAt on i) k = (on && k == i) :=
  (BitVec.getLsbD_eq_getElem k.isLt).trans (bitAt_getElem on i k)

theorem bit_or (v w : Byte) (k : Nat) : bit (v ||| w) k = (bit v k || bit w k) := BitVec.getLsbD_or

theorem Spi.risingEdge_iff (ps : Params) (p : Spi) (port : Byte) :
    p.risingEdge ps port = true ↔ p.prevClk = false ∧ bit port ps.spiSclkBit = true := by
  simp [Spi.risingEdge]

theorem Spi.write_of_edge {ps : Params} {p : Spi} {port : Byte} (h : p.risingEdge ps port = true) :
    p.write ps port = (true,
      ({ p with lastPort := port, prevClk := bit port ps.spiSclkBit } : Spi).clockEdge (bit port ps.spiMosiBit)) :=
  if_pos h

theorem Spi.write_of_no_edge {ps : Params} {p : Spi} {port : Byte} (h : ¬ p.risingEdge ps port = true) :
    p.write ps port = (false, { p with lastPort := port, prevClk := bit port ps.spiSclkBit }) :=
  if_neg h

theorem Spi.readPort_getElem (ps : Params) (p : Spi) (k : Fin 8) :
    (p.readPort ps)[k] = if k = ps.spiMisoBit then p.misoLine else p.lastPort[k] := by
  have hk : (p.readPort ps)[k] =
      (p.lastPort[k] && !(bitAt true ps.spiMisoBit)[k] || (bitAt p.misoLine ps.spiMisoBit)[k]) := by
    simp only [Spi.readPort, Fin.getElem_fin, BitVec.getElem_or, BitVec.getElem_and, BitVec.getElem_not]
  rw [hk, bitAt_getElem, bitAt_getElem]
  by_cases h : k = ps.spiMisoBit
  · simp [h]
  · simp [h, beq_eq_false_iff_ne.mpr h]

/-! ### One clock edge (R244 to R248) -/

/-- The slave with the byte under way: at a byte's first edge it loads the next byte to send (R246). -/
def Spi.begun (p : Spi) : Spi := if p.bitCount = 0 then p.startByte else p

/-- Loading a byte clears the shift register, takes the head of the queue, or the filler, and leaves the consumer. -/
theorem Spi.startByte_eq (p : Spi) : p.startByte = { p with
    done := false
    mosiShift := 0x00#8
    misoShift := p.misoQueue.headD 0xFF#8
    misoQueue := p.misoQueue.tail } := by
  obtain ⟨_, _, _, _, _, _, _, _, queue, _, _⟩ := p
  cases queue <;> rfl

theorem Spi.countBit_of_seven {p : Spi} (h : p.bitCount = 7) :
    p.countBit = ({ p with bitCount := 0, done := true } : Spi).consume p.mosiShift := if_pos h

theorem Spi.countBit_of_ne_seven {p : Spi} (h : p.bitCount ≠ 7) : p.countBit = { p with bitCount := p.bitCount + 1 } :=
  if_neg h

theorem Spi.begun_of_bitCount_ne {p : Spi} (h : p.bitCount ≠ 0) : p.begun = p := if_neg h

theorem Spi.begun_of_bitCount_eq {p : Spi} (h : p.bitCount = 0) : p.begun = p.startByte := if_pos h

/-- Loading a byte plays no part in the count. -/
theorem Spi.begun_bitCount (p : Spi) : p.begun.bitCount = p.bitCount := by
  unfold Spi.begun
  split
  · rw [Spi.startByte_eq]
  · rfl

/-- The port levels play no part in loading a byte. -/
theorem Spi.begun_setPort (p : Spi) (port : Byte) (clk : Bool) :
    ({ p with lastPort := port, prevClk := clk } : Spi).begun = { p.begun with lastPort := port, prevClk := clk } := by
  unfold Spi.begun
  simp only [Spi.startByte_eq]
  split <;> rfl

/-- Counting a bit leaves the MISO line. -/
theorem Spi.countBit_misoLine (p : Spi) : p.countBit.misoLine = p.misoLine := by
  unfold Spi.countBit
  split <;> rfl

/-- A low and a high write of a data level are one edge with that level, if clock and data have bits of their own. -/
theorem sendBit_eq_clockEdge {ps : Params} (h : ps.spiSclkBit ≠ ps.spiMosiBit) (p : Spi) (m : Bool) :
    sendBit ps p m = ({ p with
      lastPort := bitAt m ps.spiMosiBit ||| bitAt true ps.spiSclkBit
      prevClk := true } : Spi).clockEdge m := by
  have hlow : bit (bitAt m ps.spiMosiBit) ps.spiSclkBit = false := by simp [bit_bitAt, h]
  have hhigh : bit (bitAt m ps.spiMosiBit ||| bitAt true ps.spiSclkBit) ps.spiSclkBit = true := by
    simp [bit_or, bit_bitAt]
  have hdata : bit (bitAt m ps.spiMosiBit ||| bitAt true ps.spiSclkBit) ps.spiMosiBit = m := by
    simp [bit_or, bit_bitAt, h.symm]
  have hnone : ¬ p.risingEdge ps (bitAt m ps.spiMosiBit) = true := by simp [Spi.risingEdge, hlow]
  rw [sendBit, Spi.write_of_no_edge hnone, Spi.write_of_edge ((Spi.risingEdge_iff ..).mpr ⟨hlow, hhigh⟩), hdata, hhigh]

/-! ### The byte under way (R244, R248) -/

/-- The next bit of a byte enters the register that holds the bits before it. -/
theorem shift_in_next_bit (v : Byte) {k : Nat} (hk : k < 8) :
    v >>> (8 - k) <<< 1 ||| bitAt (bit v (7 - k)) 0 = v >>> (8 - (k + 1)) := by
  ext j hj
  cases j with
  | zero => cases hb : bit v (7 - k) <;> simp_all [bitAt, bit]
  | succ j =>
    have hbit : (bitAt (bit v (7 - k)) 0)[j + 1] = false := by cases bit v (7 - k) <;> simp [bitAt]
    simp [hbit]
    congr 1; omega

theorem bit_shiftLeft_seven (b : Byte) {k : Nat} (hk : k < 8) : bit (b <<< k) 7 = bit b (7 - k) := by
  simp only [bit, BitVec.getLsbD_shiftLeft]
  simp [show ¬ 7 < k by omega]

/-- `k` bits of the byte `v` sent to the slave `p` between bytes have entered, as many of the byte loaded from its queue
have left, and the consumer has not been called. -/
structure BitsExchanged (p : Spi) (v : Byte) (k : Nat) (q : Spi) : Prop where
  mosi      : q.mosiShift = v >>> (8 - k)
  miso      : q.misoShift = p.misoQueue.headD 0xFF#8 <<< k
  queue     : q.misoQueue = p.misoQueue.tail
  id        : q.id = p.id
  received  : q.received = p.received
  responses : q.responses = p.responses

/-- Loading the first byte to send, before any bit of it. -/
theorem bitsExchanged_startByte (p : Spi) (v : Byte) : BitsExchanged p v 0 p.startByte := by
  rw [Spi.startByte_eq]
  exact ⟨(BitVec.ushiftRight_eq_zero (le_refl 8)).symm, (BitVec.shiftLeft_zero _).symm, rfl, rfl, rfl, rfl⟩

/-- The exchange of the next bit. -/
theorem BitsExchanged.exchange {p q : Spi} {v : Byte} {k : Nat} (h : BitsExchanged p v k q) (hk : k < 8) :
    BitsExchanged p v (k + 1) (q.exchange (bit v (7 - k))) where
  mosi      := by rw [← shift_in_next_bit v hk, ← h.mosi]; rfl
  miso      := by rw [BitVec.shiftLeft_add, ← h.miso]; rfl
  queue     := h.queue
  id        := h.id
  received  := h.received
  responses := h.responses

/-- The slave `q` after `k` edges, `k < 8`, of the byte `v` sent to the slave `p` between bytes. -/
structure Exchanging (p : Spi) (v : Byte) (k : Nat) (q : Spi) : Prop where
  count : q.bitCount.toNat = k
  bits  : BitsExchanged p v k q.begun

theorem exchanging_zero {p : Spi} (v : Byte) (h : p.bitCount = 0) : Exchanging p v 0 p where
  count := by rw [h]; rfl
  bits  := by rw [Spi.begun_of_bitCount_eq h]; exact bitsExchanged_startByte p v

section
variable {ps : Params} (hps : ps.spiSclkBit ≠ ps.spiMosiBit) {p q : Spi} {v : Byte} {k : Nat} (h : Exchanging p v k q)
include hps h

/-- Sending the next bit of `v` exchanges it for the next bit of the byte loaded, then counts it. -/
theorem Exchanging.sendBit_eq_countBit (hk : k < 8) :
    ∃ e, sendBit ps q (bit v (7 - k)) = e.countBit ∧ BitsExchanged p v (k + 1) e ∧ e.bitCount = q.bitCount ∧
      e.misoLine = bit (p.misoQueue.headD 0xFF#8) (7 - k) := by
  set port := bitAt (bit v (7 - k)) ps.spiMosiBit ||| bitAt true ps.spiSclkBit
  obtain ⟨hmosi, hmiso, hqueue, hid, hreceived, hresponses⟩ := h.bits
  have hport : BitsExchanged p v k ({ q.begun with lastPort := port, prevClk := true } : Spi) :=
    ⟨hmosi, hmiso, hqueue, hid, hreceived, hresponses⟩
  refine ⟨({ q.begun with lastPort := port, prevClk := true } : Spi).exchange (bit v (7 - k)), ?_, hport.exchange hk,
    q.begun_bitCount, ?_⟩
  · rw [sendBit_eq_clockEdge hps, ← Spi.begun_setPort]; rfl
  · rw [← bit_shiftLeft_seven (p.misoQueue.headD 0xFF#8) hk, ← hmiso]; rfl

/-- Before the eighth bit the count goes on. -/
theorem Exchanging.next (hk : k < 7) : Exchanging p v (k + 1) (sendBit ps q (bit v (7 - k))) := by
  obtain ⟨e, he, hbits, hcount, -⟩ := h.sendBit_eq_countBit hps (by omega)
  have hk' : e.bitCount.val = k := (congrArg _ hcount).trans h.count
  have hnext : (e.bitCount + 1).val = k + 1 := by rw [Fin.val_add, hk']; exact Nat.mod_eq_of_lt (by omega)
  have hseven : e.bitCount ≠ 7 := fun h7 => by rw [h7] at hk'; exact absurd hk' (by simp; omega)
  have hne : e.bitCount + 1 ≠ 0 := fun h0 => by rw [h0] at hnext; exact absurd hnext (by simp)
  rw [he, Spi.countBit_of_ne_seven hseven]
  refine ⟨hnext, ?_⟩
  rw [Spi.begun_of_bitCount_ne hne]
  exact ⟨hbits.mosi, hbits.miso, hbits.queue, hbits.id, hbits.received, hbits.responses⟩

/-- The MISO line shows the bit exchanged: counting leaves it. -/
theorem Exchanging.misoLine_sendBit (hk : k < 8) :
    (sendBit ps q (bit v (7 - k))).misoLine = bit (p.misoQueue.headD 0xFF#8) (7 - k) := by
  obtain ⟨e, he, -, -, hline⟩ := h.sendBit_eq_countBit hps hk
  rw [he, Spi.countBit_misoLine, hline]

end

/-- The consumer's answer is computed from what no bit exchange changes. -/
theorem BitsExchanged.response {p q : Spi} {v w : Byte} {k : Nat} (h : BitsExchanged p v k q) :
    q.response w = p.response w := by
  unfold Spi.response
  rw [h.id, h.received, h.responses]

/-- After `k < 8` bits of a byte. -/
theorem exchanging_sendBits {ps : Params} (hps : ps.spiSclkBit ≠ ps.spiMosiBit) {p : Spi} (v : Byte)
    (hp : p.bitCount = 0) (k : Nat) (hk : k < 8) : Exchanging p v k (sendBits ps v k p) := by
  induction k with
  | zero => exact exchanging_zero v hp
  | succ k ih => exact (ih (by omega)).next hps (by omega)

/-- The eighth bit completes the byte, sets `Done` and hands the byte to the consumer. -/
theorem sendBits_eight {ps : Params} (hps : ps.spiSclkBit ≠ ps.spiMosiBit) {p : Spi} (v : Byte) (hp : p.bitCount = 0) :
    ∃ e, sendBits ps v 8 p = ({ e with bitCount := 0, done := true } : Spi).consume v ∧ BitsExchanged p v 8 e := by
  have h := exchanging_sendBits hps v hp 7 (by decide)
  obtain ⟨e, he, hbits, hcount, -⟩ := h.sendBit_eq_countBit hps (by decide)
  have hseven : e.bitCount = 7 := hcount.trans (Fin.ext h.count)
  have hv : e.mosiShift = v := hbits.mosi
  exact ⟨e, he.trans ((Spi.countBit_of_seven hseven).trans (by rw [hv])), hbits⟩

end Sys2Proof.Machine

namespace Sys2Proof.Proofs

open Sys2Proof Sys2Proof.Machine Sys2Proof.Claims

/-- Settles O50: each of the first seven bits takes the exchange one further (`exchanging_sendBits`), the eighth
completes it (`sendBits_eight`). -/
theorem spiByteExchange : Obligations.SpiByteExchange := by
  intro ps p v hps hp
  obtain ⟨e, he, hbits⟩ := sendBits_eight hps v hp
  refine ⟨by rw [he]; exact hbits.mosi, by rw [he]; rfl, by rw [he]; rfl, ?_, ?_, fun k h1 h8 => ?_⟩
  · rw [he, ← hbits.received]; rfl
  · rw [he, ← hbits.queue, ← hbits.response]; rfl
  · obtain ⟨j, rfl⟩ := Nat.exists_eq_add_of_le' h1
    rw [sendBits, (exchanging_sendBits hps v hp j (by omega)).misoLine_sendBit hps (by omega)]
    congr 1; omega

/-- Settles O51: `SpiWrite` exchanges a bit only at a rising edge (`Spi.write_of_edge`, `Spi.write_of_no_edge`); the
port read is followed bit by bit. -/
theorem spiWithoutEdge : Obligations.SpiWithoutEdge := by
  intro ps p port
  rw [← Spi.risingEdge_iff ps p port]
  refine ⟨?_, fun h => by rw [Spi.write_of_no_edge h], p.readPort_getElem ps⟩
  by_cases h : p.risingEdge ps port = true
  · rw [Spi.write_of_edge h, h]
  · simp [Spi.write_of_no_edge h, h]

end Sys2Proof.Proofs

/-! # Command arguments (`48_breakpoint_engine.md` R279) -/

namespace Sys2Proof.Machine

open Sys2Proof Sys2Proof.Claims

/-! ### Numbers -/

theorem digitValue_eq_some_iff {base : Nat} (hb : base ≤ 16) (c : Char) (v : Nat) :
    digitValue base c = some v ↔ DigitWorth base c v := by
  simp only [digitValue, DigitWorth, Option.ite_none_right_eq_some, Option.some.injEq]
  split
  · omega
  · split <;> omega

theorem digitsFrom_eq_some_iff {base : Nat} (hb : base ≤ 16) (t : Text) (acc n : Nat) :
    digitsFrom base acc t = some n ↔
      ∃ vs, List.Forall₂ (DigitWorth base) t vs ∧ n = vs.foldl (fun acc v => acc * base + v) acc := by
  induction t generalizing acc with
  | nil => simp [digitsFrom, eq_comm]
  | cons c rest ih =>
    simp only [digitsFrom, List.forall₂_cons_left_iff]
    cases hd : digitValue base c with
    | none =>
      have hno : ∀ v, ¬ DigitWorth base c v := fun v hv => by
        rw [(digitValue_eq_some_iff hb c v).mpr hv] at hd; cases hd
      simp [hno]
    | some v =>
      have hv : ∀ w, DigitWorth base c w ↔ v = w := fun w => by
        rw [← digitValue_eq_some_iff hb, hd, Option.some.injEq]
      simp [ih, hv]

theorem digits_eq_some_iff {base : Nat} (hb : base ≤ 16) (t : Text) (n : Nat) :
    digits base t = some n ↔ Denotes base t n := by
  rw [digits, Denotes, ← digitsFrom_eq_some_iff hb]
  split <;> simp [*]

theorem not_denotes_of_no_digit {base : Nat} (hb : base ≤ 16) {c : Char} (h : digitValue base c = none) (t : Text)
    (n : Nat) : ¬ Denotes base (c :: t) n := by
  rw [← digits_eq_some_iff hb, digits, if_neg (List.cons_ne_nil _ _), digitsFrom, h]
  exact nofun

/-- `$` and `x` are no decimal digits, so a text that begins with `$` or `0x` has only the hexadecimal reading. -/
theorem parseNumber_eq_some_iff (t : Text) (n : Nat) : parseNumber t = some n ↔ NumberIs t n := by
  unfold NumberIs
  fun_cases parseNumber t with
  | case1 rest =>
    have hten := not_denotes_of_no_digit (base := 10) (by decide) (c := '$') (by decide) rest n
    simp [digits_eq_some_iff, hten]
  | case2 rest =>
    have hten : ¬ Denotes 10 ('0' :: 'x' :: rest) n := by
      rw [← digits_eq_some_iff (by decide)]; exact nofun
    simp [digits_eq_some_iff, hten]
  | case3 t hdollar hzero =>
    rw [digits_eq_some_iff (by decide)]
    exact ⟨fun h => .inr (.inr h), fun h => h.elim (fun ⟨ds, he, _⟩ => (hdollar ds he).elim)
      fun h => h.elim (fun ⟨ds, he, _⟩ => (hzero ds he).elim) id⟩

/-! ### Symbols -/

theorem mem_symbolAddresses {ps : Params} {t : Text} {a : Addr} :
    a ∈ symbolAddresses ps t ↔ ∃ e ∈ ps.symbols, lowerText e.label = t ∧ e.address = a := by
  simp [symbolAddresses, and_assoc]

/-- Without its repetitions, a list begins with two different elements. -/
theorem ne_of_eraseDups_eq_cons_cons {α : Type} [BEq α] [LawfulBEq α] {l rest : List α} {a b : α}
    (h : l.eraseDups = a :: b :: rest) : a ≠ b := by
  cases l with
  | nil => cases h
  | cons x xs =>
    rw [List.eraseDups_cons, List.cons.injEq] at h
    have hb : b ∈ (xs.filter fun y => !y == x).eraseDups := h.2 ▸ .head _
    rw [List.mem_eraseDups, List.mem_filter] at hb
    rintro rfl
    simp [h.1] at hb

section
variable {ps : Params} {t : Text}

/-- A label has one address when some symbol has it and every symbol of the label has it. -/
theorem symbolAddresses_eq_singleton {a : Addr} (h : ∃ e ∈ ps.symbols, lowerText e.label = t ∧ e.address = a)
    (hall : ∀ e ∈ ps.symbols, lowerText e.label = t → e.address = a) : symbolAddresses ps t = [a] := by
  have hmem : ∀ {b}, b ∈ symbolAddresses ps t → b = a := fun hb => by
    obtain ⟨e, he, hl, rfl⟩ := mem_symbolAddresses.mp hb
    exact hall e he hl
  match hs : symbolAddresses ps t with
  | [] => exact absurd (mem_symbolAddresses.mpr h) (by simp [hs])
  | [b] => rw [hmem (b := b) (by simp [hs])]
  | b :: c :: rest =>
    exact absurd ((hmem (b := b) (by simp [hs])).trans (hmem (b := c) (by simp [hs])).symm)
      (ne_of_eraseDups_eq_cons_cons hs)

/-- A label with two addresses. -/
theorem symbolAddresses_eq_cons_cons (h : ∃ e ∈ ps.symbols, ∃ e' ∈ ps.symbols,
    lowerText e.label = t ∧ lowerText e'.label = t ∧ e.address ≠ e'.address) :
    ∃ a b rest, symbolAddresses ps t = a :: b :: rest := by
  obtain ⟨e, he, e', he', hl, hl', hne⟩ := h
  have h1 := mem_symbolAddresses.mpr ⟨e, he, hl, rfl⟩
  have h2 := mem_symbolAddresses.mpr ⟨e', he', hl', rfl⟩
  match hs : symbolAddresses ps t with
  | [] => rw [hs] at h1; cases h1
  | [b] => rw [hs, List.mem_singleton] at h1 h2; exact absurd (h1.trans h2.symm) hne
  | a :: b :: rest => exact ⟨a, b, rest, rfl⟩

theorem symbolAddresses_eq_nil (h : ∀ e ∈ ps.symbols, lowerText e.label ≠ t) : symbolAddresses ps t = [] :=
  List.eq_nil_iff_forall_not_mem.mpr fun _ ha =>
    have ⟨e, he, hl, _⟩ := mem_symbolAddresses.mp ha
    h e he hl

/-! ### The argument -/

variable (pc : Addr)

theorem resolve_dot : resolve ps pc ['.'] = .ok pc.toNat := if_pos rfl

variable {pc} (ht : t ≠ ['.'])
include ht

theorem resolve_of_one {a : Addr} (h : symbolAddresses ps t = [a]) : resolve ps pc t = .ok a.toNat := by
  rw [resolve, if_neg ht, h]

theorem resolve_of_several {a b : Addr} {rest : List Addr} (h : symbolAddresses ps t = a :: b :: rest) :
    resolve ps pc t = .error .ambiguousSymbol := by
  rw [resolve, if_neg ht, h]

theorem resolve_of_number {n : Nat} (h : symbolAddresses ps t = []) (hn : NumberIs t n) : resolve ps pc t = .ok n := by
  rw [resolve, if_neg ht, h, (parseNumber_eq_some_iff t n).mpr hn]

theorem resolve_of_no_number (h : symbolAddresses ps t = []) (hn : ∀ n, ¬ NumberIs t n) :
    resolve ps pc t = .error .badArgument := by
  have hnone : parseNumber t = none :=
    Option.eq_none_iff_forall_ne_some.mpr fun n he => hn n ((parseNumber_eq_some_iff t n).mp he)
  rw [resolve, if_neg ht, h, hnone]

end

end Sys2Proof.Machine

namespace Sys2Proof.Proofs

open Sys2Proof Sys2Proof.Machine Sys2Proof.Claims

/-- Settles O60: the argument is resolved by the list of addresses of its label, and with none by `parseNumber`, which
reads the numbers of R279 (`parseNumber_eq_some_iff`). -/
theorem argumentRule : Obligations.ArgumentRule := by
  refine fun ps pc t => ⟨resolve_dot pc, fun ht =>
    ⟨fun a h hall => ?_, fun h => ?_, fun h => ⟨fun n hn => ?_, fun hn => ?_⟩⟩⟩
  · exact resolve_of_one ht (symbolAddresses_eq_singleton h hall)
  · obtain ⟨a, b, rest, hs⟩ := symbolAddresses_eq_cons_cons h
    exact resolve_of_several ht hs
  · exact resolve_of_number ht (symbolAddresses_eq_nil h) hn
  · exact resolve_of_no_number ht (symbolAddresses_eq_nil h) hn

end Sys2Proof.Proofs

/-! # Command lines (`48_breakpoint_engine.md` R270 to R273, R278) -/

namespace Sys2Proof.Machine

open Sys2Proof Sys2Proof.Claims

/-! ### The command table -/

theorem commandWord_of_mem : ∀ e ∈ commandTable, commandWord e.1.toList = some e.2 := by decide

/-- A word of a list whose entries all select the command `c`. -/
theorem commandWord_of_isOneOf {w : Text} {words : List String} {c : CommandWord} (h : isOneOf w words)
    (hall : ∀ x ∈ words, (x, c) ∈ commandTable) : commandWord w = some c := by
  obtain ⟨x, hx, rfl⟩ := List.mem_map.mp h
  exact commandWord_of_mem (x, c) (hall x hx)

theorem commandTable_names : ∀ e ∈ commandTable, e.1 ∈ commandNames := by decide

theorem commandWord_of_not_name {w : Text} (h : ¬ isOneOf w commandNames) : commandWord w = none := by
  rw [commandWord, Option.map_eq_none_iff, List.find?_eq_none]
  intro e he hw
  exact h (List.mem_map.mpr ⟨e.1, commandTable_names e he, beq_iff_eq.mp hw⟩)

/-! ### Arguments -/

section
variable {k : Nat} {ps : Params} {pc : Addr} {t : Text}

theorem resolveWord_of_ok {n : Nat} (h : resolve ps pc t = .ok n) (hn : n < 2 ^ k) :
    resolveWord k ps pc t = .ok (BitVec.ofNat k n) := by simp only [resolveWord, h, if_pos hn]

theorem resolveWord_of_large {n : Nat} (h : resolve ps pc t = .ok n) (hn : 2 ^ k ≤ n) :
    resolveWord k ps pc t = .error .badArgument := by simp only [resolveWord, h, if_neg (Nat.not_lt.mpr hn)]

theorem resolveWord_of_error {e : InputError} (h : resolve ps pc t = .error e) : resolveWord k ps pc t = .error e := by
  simp only [resolveWord, h]

/-- A command that follows `resolveWord` takes its argument as a number. -/
theorem takesNumber_of_resolveWord {c : Command} {made : BitVec k → Command}
    (hok : ∀ v, resolveWord k ps pc t = .ok v → c = made v)
    (herror : ∀ e, resolveWord k ps pc t = .error e → c = .invalid e) : TakesNumber k ps pc t c made :=
  ⟨fun _ h hn => hok _ (resolveWord_of_ok h hn), fun _ h hn => herror _ (resolveWord_of_large h hn),
    fun _ h => herror _ (resolveWord_of_error h)⟩

variable (ps pc t) {w : Text} (rest : List Text)

theorem parseTokens_breakAddress (hw : commandWord w = some .breakAddress) :
    TakesNumber 16 ps pc t (parseTokens ps pc (w :: t :: rest)) .breakAddress :=
  takesNumber_of_resolveWord (fun _ h => by simp only [parseTokens, hw, h]) fun _ h => by simp only [parseTokens, hw, h]

theorem parseTokens_read {n : Nat} (hw : commandWord w = some (.read n)) :
    TakesNumber 16 ps pc t (parseTokens ps pc (w :: t :: rest)) (.read n) :=
  takesNumber_of_resolveWord (fun _ h => by simp only [parseTokens, hw, h]) fun _ h => by simp only [parseTokens, hw, h]

theorem parseTokens_breakRegister {r : Text} {reg : IndexedRegister} (hw : commandWord w = some .breakRegister)
    (hr : registerNamed r = some reg) :
    TakesNumber 8 ps pc t (parseTokens ps pc (w :: r :: t :: rest)) (.breakRegister reg) :=
  takesNumber_of_resolveWord (fun _ h => by simp only [parseTokens, hw, hr, h])
    fun _ h => by simp only [parseTokens, hw, hr, h]

theorem parseTokens_breakRegister_of_no_register {r : Text} (hw : commandWord w = some .breakRegister)
    (hr : registerNamed r = none) : parseTokens ps pc (w :: r :: t :: rest) = .invalid .badArgument := by
  simp only [parseTokens, hw, hr]

end

theorem registerNamed_eq_none {r : Text} (h : r ∉ [['a'], ['x'], ['y']]) : registerNamed r = none := by
  fun_cases registerNamed r with
  | case4 => rfl
  | case1 | case2 | case3 => exact absurd (by decide) h

/-! ### Case -/

theorem lowerText_eq_self {line : Text} (h : ∀ c ∈ line, ¬(65 ≤ c.toNat ∧ c.toNat ≤ 90)) : lowerText line = line :=
  (List.map_congr_left fun c hc => if_neg (h c hc)).trans (List.map_id' line)

theorem lowerChar_letter : ∀ k < 26, lowerChar (Char.ofNat (65 + k)) = lowerChar (Char.ofNat (97 + k)) := by decide

theorem lowerChar_eq_of_sameLetter {c d : Char} (h : SameLetter c d) : lowerChar c = lowerChar d := by
  obtain rfl | ⟨k, hk, ⟨rfl, rfl⟩ | ⟨rfl, rfl⟩⟩ := h
  · rfl
  · exact lowerChar_letter k hk
  · exact (lowerChar_letter k hk).symm

theorem lowerText_eq_of_sameLetter {line other : Text} (h : List.Forall₂ SameLetter line other) :
    lowerText line = lowerText other := by
  induction h with
  | nil => rfl
  | cons hc _ ih => exact congrArg₂ List.cons (lowerChar_eq_of_sameLetter hc) ih

/-! ### Tokens -/

theorem isSpace_eq_true_iff (c : Char) : isSpace c = true ↔ c ∈ separators := by
  simp [isSpace, separators, or_assoc]

theorem tokens_cons_of_space {c : Char} (h : c ∈ separators) (line : Text) : tokens (c :: line) = tokens line := by
  simp only [tokens, tokensFrom, (isSpace_eq_true_iff c).mpr h, if_true]

/-- Characters that are no separators lengthen the token under way. -/
theorem tokensFrom_append {w : Text} (h : ∀ c ∈ w, c ∉ separators) (cur line : Text) :
    tokensFrom cur (w ++ line) = tokensFrom (cur ++ w) line := by
  induction w generalizing cur with
  | nil => simp
  | cons c w ih =>
    obtain ⟨hc, hw⟩ := List.forall_mem_cons.mp h
    have hspace : ¬ isSpace c = true := fun hs => hc ((isSpace_eq_true_iff c).mp hs)
    rw [List.cons_append, tokensFrom, if_neg hspace, ih hw, List.append_assoc, List.singleton_append]

theorem tokens_of_isToken {w : Text} (h : IsToken w) : tokens w = [w] := by
  have := tokensFrom_append h.2 [] []
  rwa [List.append_nil, List.nil_append, tokensFrom, if_neg h.1] at this

theorem tokens_append_of_space {w : Text} (h : IsToken w) {c : Char} (hc : c ∈ separators) (line : Text) :
    tokens (w ++ c :: line) = w :: tokens line := by
  have hspace := (isSpace_eq_true_iff c).mpr hc
  rw [tokens, tokensFrom_append h.2, List.nil_append, tokensFrom, if_pos hspace, if_neg h.1, tokens]

/-! ### The empty line -/

/-- An empty line after a command stands for that command. -/
theorem takeLine_of_empty_of_some (i : Instr) {s : State} {line last : Text} (h : tokens line = [])
    (hl : s.dbg.lastCommand = some last) : takeLine i line s = takeLine i last s := by
  have hline : effectiveLine s line = some last := (if_pos h).trans hl
  have hlast : effectiveLine s last = some last := by rw [effectiveLine, hl, ite_self]
  rw [takeLine, takeLine, hline, hlast]

/-- `ba .` sets the breakpoint at `PC`. -/
theorem parseCommand_breakAddress_dot (pc : Addr) :
    parseCommand Params.default pc "ba .".toList = .breakAddress pc := by
  obtain ⟨hfits, -, -⟩ := parseTokens_breakAddress Params.default pc ['.'] [] (w := "ba".toList) (by decide)
  have h := hfits _ (resolve_dot pc) pc.isLt
  rwa [BitVec.ofNat_toNat, BitVec.setWidth_eq] at h

end Sys2Proof.Machine

namespace Sys2Proof.Proofs

open Sys2Proof Sys2Proof.Machine Sys2Proof.Claims

/-- Settles O54: the words by the command table (`commandWord_of_isOneOf`), the arguments by `resolveWord`, case by
`lowerText`, tokens by `tokensFrom_append`; the sample lines are evaluated. -/
theorem commandGrammar : Obligations.CommandGrammar := by
  refine ⟨fun ps pc w args => ?words, fun ps pc w t r rest => ?arguments, fun ps pc line other => ?letters,
    ⟨rfl, fun w line c hc => ?tokens⟩, fun i line s => ?lines, fun pc => ?samples⟩
  case words =>
    refine ⟨fun h => ?_, fun h => ?_, fun h => ?_, fun h => ?_, fun h => ?_, fun h => ?_⟩
    · simp only [parseTokens, commandWord_of_isOneOf (c := .resume) h (by decide)]
    · simp only [parseTokens, commandWord_of_isOneOf (c := .exit) h (by decide)]
    · simp only [parseTokens, commandWord_of_isOneOf (c := .help) h (by decide)]
    · simp only [parseTokens, commandWord_of_isOneOf (c := .stepOver) h (by decide)]
    · simp only [parseTokens, commandWord_of_isOneOf (c := .stepOne) h (by decide)]
    · simp only [parseTokens, commandWord_of_not_name h]
  case arguments =>
    refine ⟨fun h => ?_, fun h => ?_, fun h => ?_, ?_, ?_, ?_⟩
    · exact parseTokens_breakAddress ps pc t rest (commandWord_of_isOneOf h (by decide))
    · simp only [parseTokens, commandWord_of_isOneOf (c := .breakInstruction) h (by decide)]
    · have hw : commandWord w = some .breakRegister := commandWord_of_isOneOf h (by decide)
      have hregister {reg} := parseTokens_breakRegister ps pc t rest (r := r) (reg := reg) hw
      refine ⟨?_, ?_, ?_, fun hr => parseTokens_breakRegister_of_no_register ps pc t rest hw (registerNamed_eq_none hr)⟩
      · rintro rfl; exact hregister rfl
      · rintro rfl; exact hregister rfl
      · rintro rfl; exact hregister rfl
    · rintro rfl; exact parseTokens_read ps pc t rest (by decide)
    · rintro rfl; exact parseTokens_read ps pc t rest (by decide)
    · rintro rfl; exact parseTokens_read ps pc t rest (by decide)
  case letters =>
    refine ⟨fun h => ?_, fun h => ?_⟩
    · rw [parseCommand, lowerText_eq_self h]
    · rw [parseCommand, parseCommand, lowerText_eq_of_sameLetter h]
  case tokens =>
    exact ⟨tokens_cons_of_space hc line, fun hw => ⟨tokens_of_isToken hw, tokens_append_of_space hw hc line⟩⟩
  case lines =>
    exact ⟨takeLine_of_tokens i s, takeLine_of_empty_of_none i s, fun last => takeLine_of_empty_of_some i⟩
  case samples =>
    exact ⟨rfl, rfl, rfl, parseCommand_breakAddress_dot pc, rfl, rfl, rfl, rfl, rfl, rfl, rfl, rfl, rfl, rfl⟩

end Sys2Proof.Proofs
